-- ==== Sys2Proof/Word.lean ====
section
/-! DEFINITION. The widths of the block's values (spec/00_scope.md R7, R11; spec/10_state.md R21, R22).
Every value is an unsigned number of a stated width; nothing in the block is signed (R11). -/

namespace Sys2Proof

/-- One byte of a frame (R10). -/
abbrev Byte := BitVec 8

/-- The 11-bit command word `CMD` (R21, R60). -/
abbrev Cmd := BitVec 11

/-- The 40-bit frame of the ports `D` and `FOUT` (R21, R22, R41). -/
abbrev Frame := BitVec 40

/-- A 16-bit word: the port `VALUE`, the calibration status and the calibration value (R21, R22). -/
abbrev Half := BitVec 16

end Sys2Proof
end

