-- ==== Sys2Proof/Syntax.lean ====
section
/-! DEFINITION. The operations of the block, one constructor per row of spec/opcode_table.json
(spec/30_encoding.md R63). Operands are input ports, not instruction fields (R60: no immediate, no register
operand); the one field a command carries beside its operation is the ignored `sel` of DEC.GEN. -/

namespace Sys2Proof

/-- The eight operations of the opcode map (R63). -/
inductive Instr where
  /-- `CRCGEN`, CMD 0x000 (R105). -/
  | crcgen
  /-- `CRCCHK`, CMD 0x100 (R106). -/
  | crcchk
  /-- `DEC.PPM`, CMD 0x200 (R133). -/
  | decPpm
  /-- `DEC.CAL`, CMD 0x201 (R135). -/
  | decCal
  /-- `DEC.VER`, CMD 0x211 (R132). -/
  | decVer
  /-- `DEC.RES`, CMD 0x220 (R134). -/
  | decRes
  /-- `DEC.GEN`, CMD 0x300 to 0x3FF, with the `sel` it ignores (R136). -/
  | decGen (sel : Byte)
  /-- `BLD.CAL`, CMD 0x401 (R170). -/
  | bldCal
deriving DecidableEq, Repr

end Sys2Proof
end

