-- ==== Sys2Proof/WellFormed.lean ====
section
/-! DEFINITION. Well-formedness: of an operation (`Instr.wellFormed`) and of the numbers a host writes down
for one transaction (`RawTransaction.wellFormed`), whose three checks are the three port widths. -/

namespace Sys2Proof

/-- Every operation is well formed: the one field an operation has, `sel` of DEC.GEN, carries its width in its
type, and "sel may be any value" (R136). -/
def Instr.wellFormed : Instr → Bool
  | .crcgen => true
  | .crcchk => true
  | .decPpm => true
  | .decCal => true
  | .decVer => true
  | .decRes => true
  | .decGen _ => true
  | .bldCal => true

/-- The numbers of one transaction as a host writes them down, before they stand on ports of fixed width. -/
structure RawTransaction where
  /-- the command word -/
  cmd : Nat
  /-- the frame -/
  d : Nat
  /-- the calibration value -/
  value : Nat
deriving DecidableEq, Repr

/-- The numbers fit the ports: CMD is 11 bits, D is 40 bits, VALUE is 16 bits, and "every value of each width
is a legal input" (R21, R44, R67). A reserved command is no ill-formed transaction: it yields ILLEGAL (R203). -/
def RawTransaction.wellFormed (t : RawTransaction) : Bool :=
  decide (t.cmd < 2 ^ 11) && decide (t.d < 2 ^ 40) && decide (t.value < 2 ^ 16)

end Sys2Proof
end

