-- ==== Sys2Proof/Decode.lean ====
section
/-! DEFINITION. The command decoder of spec/30_encoding.md R64, total on all 2048 values of CMD, the encoder
(R60, R63), and the opcode map as `match` and `mask` rows (R63). -/

namespace Sys2Proof

/-- Why a command is reserved: the four clauses of R65, in its order. -/
inductive Reserved where
  /-- fn 101, 110 or 111 with any sel. -/
  | functionClass
  /-- fn 000 or 001 with sel ≠ 0x00. -/
  | crcSelector
  /-- fn 010 with sel not in {0x00, 0x01, 0x11, 0x20}. -/
  | viewSelector
  /-- fn 100 with sel ≠ 0x01. -/
  | buildSelector
deriving DecidableEq, Repr

/-- The function class, CMD[10:8] (R60). -/
def fnOf (c : Cmd) : BitVec 3 := c.extractLsb' 8 3

/-- The register selector, CMD[7:0] (R60). -/
def selOf (c : Cmd) : Byte := c.extractLsb' 0 8

/-- The command word `{fn[2:0], sel[7:0]}`: CMD = fn * 0x100 + sel (R60). -/
def commandWord (fn : BitVec 3) (sel : Byte) : Cmd := fn ++ sel

/-- The clause of R65 that a command outside the opcode map falls under. -/
def reservedReason (c : Cmd) : Reserved :=
  if fnOf c = 0b000 ∨ fnOf c = 0b001 then .crcSelector
  else if fnOf c = 0b010 then .viewSelector
  else if fnOf c = 0b100 then .buildSelector
  else .functionClass

/-- The decode procedure of R64, clause by clause. -/
def decode (c : Cmd) : Except Reserved Instr :=
  if fnOf c = 0b000 ∧ selOf c = 0x00 then .ok .crcgen
  else if fnOf c = 0b001 ∧ selOf c = 0x00 then .ok .crcchk
  else if fnOf c = 0b010 ∧ selOf c = 0x00 then .ok .decPpm
  else if fnOf c = 0b010 ∧ selOf c = 0x01 then .ok .decCal
  else if fnOf c = 0b010 ∧ selOf c = 0x11 then .ok .decVer
  else if fnOf c = 0b010 ∧ selOf c = 0x20 then .ok .decRes
  else if fnOf c = 0b011 then .ok (.decGen (selOf c))
  else if fnOf c = 0b100 ∧ selOf c = 0x01 then .ok .bldCal
  else .error (reservedReason c)

/-- The command selects an operation (R64, R65). -/
def selectsOperation (c : Cmd) : Bool :=
  match decode c with
  | .ok _ => true
  | .error _ => false

/-- The command word of an operation, from the fn and sel columns of R63. -/
def encode : Instr → Cmd
  | .crcgen => commandWord 0b000 0x00
  | .crcchk => commandWord 0b001 0x00
  | .decPpm => commandWord 0b010 0x00
  | .decCal => commandWord 0b010 0x01
  | .decVer => commandWord 0b010 0x11
  | .decRes => commandWord 0b010 0x20
  | .decGen sel => commandWord 0b011 sel
  | .bldCal => commandWord 0b100 0x01

/-- One row of the opcode map (R63). -/
structure OpcodeRow where
  /-- the row's mnemonic -/
  mnemonic : String
  /-- the `match` column -/
  pattern : Cmd
  /-- the `mask` column -/
  mask : Cmd
deriving DecidableEq, Repr

/-- "a CMD selects the row when (CMD & mask) == match" (R63). -/
def OpcodeRow.selects (r : OpcodeRow) (c : Cmd) : Bool := c &&& r.mask == r.pattern

/-- The row of R63 an operation belongs to. -/
def rowOf : Instr → OpcodeRow
  | .crcgen => ⟨"CRCGEN", 0x000, 0x7FF⟩
  | .crcchk => ⟨"CRCCHK", 0x100, 0x7FF⟩
  | .decPpm => ⟨"DEC.PPM", 0x200, 0x7FF⟩
  | .decCal => ⟨"DEC.CAL", 0x201, 0x7FF⟩
  | .decVer => ⟨"DEC.VER", 0x211, 0x7FF⟩
  | .decRes => ⟨"DEC.RES", 0x220, 0x7FF⟩
  | .decGen _ => ⟨"DEC.GEN", 0x300, 0x700⟩
  | .bldCal => ⟨"BLD.CAL", 0x401, 0x7FF⟩

/-- The eight rows of R63, in the table's order. -/
def opcodeTable : List OpcodeRow :=
  [rowOf .crcgen, rowOf .crcchk, rowOf .decPpm, rowOf .decCal,
   rowOf .decVer, rowOf .decRes, rowOf (.decGen 0), rowOf .bldCal]

/-- The command whose bits are the number `w`, of which `nbits` count (bit 0 the least significant): the CMD
port is 11 bits wide (R60, R67), so a number with a bit above bit 10 is no command. -/
def tableCommand (nbits w : Nat) : Option Cmd :=
  if w % 2 ^ nbits < 2 ^ 11 then some (BitVec.ofNat 11 (w % 2 ^ nbits)) else none

/-- What the decoder reads from a command given as a number (CMD is a port, so no byte order enters, R55). -/
def decodeTableWord (nbits w : Nat) : Option Instr :=
  match tableCommand nbits w with
  | none => none
  | some c =>
    match decode c with
    | .ok i => some i
    | .error _ => none

end Sys2Proof
end

