-- ==== Sys2Proof/Machine/Crc.lean ====
section
/-! DEFINITION. The CRC-8 function of spec/40_crc.md: polynomial 0x31, initial value 0xFF, non-reflected, no
final XOR (R2, R100 to R102). -/

namespace Sys2Proof.Machine

/-- CRC_POLY (R7): x^8 + x^5 + x^4 + 1 with the top term implicit. -/
def crcPoly : Byte := 0x31

/-- CRC_INIT (R7). -/
def crcInit : Byte := 0xFF

/-- The bit step `CRC8_BIT` (R100): shift left, and XOR with the polynomial if bit 7 was set. -/
def crcBit (c : Byte) : Byte :=
  if c.getLsbD 7 then (c <<< 1) ^^^ crcPoly else c <<< 1

/-- The byte step `CRC8_BYTE` (R101): XOR the byte in whole, then eight bit steps. -/
def crcByte (c b : Byte) : Byte := crcBit^[8] (c ^^^ b)

/-- The running CRC over a byte list, from a given initial value (R102; R108's `CRC8_0` is the one from 0). -/
def crc8From (c : Byte) (bytes : List Byte) : Byte := bytes.foldl crcByte c

/-- The checksum `CRC8` over a byte list (R102). -/
def crc8 (bytes : List Byte) : Byte := crc8From crcInit bytes

end Sys2Proof.Machine
end

