-- ==== Sys2Proof/Machine/Operands.lean ====
section
/-! DEFINITION. The operand fields: the bytes of a frame (spec/20_memory.md R41), big-endian words (R42), and
the fields each view decodes, by the byte positions of spec/30_encoding.md R62. -/

namespace Sys2Proof.Machine

/-- Byte `i` of a frame, bits [39-8*i : 32-8*i] (R12 `B(i)`, R41); `i` is 0 to 4. -/
def frameByte (d : Frame) (i : Nat) : Byte := d.extractLsb' (32 - 8 * i) 8

/-- The frame of five bytes in bus order, B0 first (R41, R47). -/
def packFrame (b0 b1 b2 b3 b4 : Byte) : Frame := b0 ++ b1 ++ b2 ++ b3 ++ b4

/-- The four data bytes, B0 to B3 (R10). -/
def dataBytes (d : Frame) : List Byte := [frameByte d 0, frameByte d 1, frameByte d 2, frameByte d 3]

/-- All five bytes in frame order (R10, R43). -/
def frameBytes (d : Frame) : List Byte := dataBytes d ++ [frameByte d 4]

/-- The residue: CRC8 over all five bytes of a frame (R14, R130). -/
def residue (d : Frame) : Byte := crc8 (frameBytes d)

/-- A big-endian 16-bit word of two bytes (R11 `be16`). -/
def be16 (a b : Byte) : Half := a ++ b

/-- A big-endian 24-bit word of three bytes (R11 `be24`). -/
def be24 (a b c : Byte) : BitVec 24 := a ++ b ++ c

/-- The ready flag, "byte 0 bit 0": bit 0 is the least significant bit (R9, D10); 1 means not-ready. -/
def readyFlag (d : Frame) : BitVec 1 := (frameByte d 0).extractLsb' 0 1

/-- The device status, byte 0 of a PPM frame. -/
def deviceStatus (d : Frame) : Byte := frameByte d 0

/-- The concentration, bytes 1 to 3 of a PPM frame. -/
def concentration (d : Frame) : BitVec 24 := be24 (frameByte d 1) (frameByte d 2) (frameByte d 3)

/-- The status word, bytes 0 and 1 of a CALIBRATION frame. -/
def calibrationStatus (d : Frame) : Half := be16 (frameByte d 0) (frameByte d 1)

/-- The value word, bytes 2 and 3 of a CALIBRATION frame. -/
def calibrationValue (d : Frame) : Half := be16 (frameByte d 2) (frameByte d 3)

/-- The version, byte 1 of a VERSION frame. -/
def versionByte (d : Frame) : Byte := frameByte d 1

/-- The raw resistance, bytes 0 to 2 of a RESISTANCE frame. -/
def rawResistance (d : Frame) : BitVec 24 := be24 (frameByte d 0) (frameByte d 1) (frameByte d 2)

/-- The resistance, `zext_32(raw) * 10`: a 32-bit unsigned product (R134). -/
def resistance (d : Frame) : BitVec 32 := (rawResistance d).setWidth 32 * 10

/-- The high byte of a 16-bit word, VALUE[15:8] (R170). -/
def highByte (v : Half) : Byte := v.extractLsb' 8 8

/-- The low byte of a 16-bit word, VALUE[7:0] (R170). -/
def lowByte (v : Half) : Byte := v.extractLsb' 0 8

end Sys2Proof.Machine
end

