-- ==== Sys2Proof/Machine/Ports.lean ====
section
/-! DEFINITION. The block's ports (spec/10_state.md R21, R22): the inputs of one transaction, the output
bundle, and what stands on the output ports at a moment. -/

namespace Sys2Proof.Machine

/-- One presentation of inputs by the host (R14 transaction, R21): the three input ports and when, after the
start of the transaction, the host first changes one of them (R225). -/
structure Inputs where
  /-- `CMD[10:0]`, the command word. -/
  cmd : Cmd
  /-- `D[39:0]`, the frame, B0 in D[39:32]. -/
  d : Frame
  /-- `VALUE[15:0]`, the calibration value for the write frame. -/
  value : Half
  /-- `none`: the host holds every input; `some t`: some input first changes `t` time units after the
  transaction's start (R50, R225). What it changes to is not held here: the host's next presentation says it
  (DESIGN CHOICE, log entry 19). -/
  change : Option Nat
deriving DecidableEq, Repr

/-- The output bundle `Out` (R22), in the order of its table. -/
structure Out where
  /-- `ERR`: the result code (R201). -/
  err : BitVec 2
  /-- `ILL`: 1 when the command is reserved (R203). -/
  ill : BitVec 1
  /-- `CRC`: the generated CRC byte, or the residue. -/
  crc : Byte
  /-- `CRCOK`: 1 when the frame the operation consumed or produced has residue 0. -/
  crcok : BitVec 1
  /-- `NRDY`: the ready flag of a PPM frame; 1 means not-ready. -/
  nrdy : BitVec 1
  /-- `STAT`: the device status byte of a PPM frame. -/
  stat : Byte
  /-- `PPM`: the concentration. -/
  ppm : BitVec 24
  /-- `CALST`: the calibration status word. -/
  calst : Half
  /-- `CALVAL`: the calibration value word. -/
  calval : Half
  /-- `VER`: the version byte. -/
  ver : Byte
  /-- `RES`: the resistance. -/
  res : BitVec 32
  /-- `FOUT`: a frame, packed as `D` is. -/
  fout : Frame
deriving DecidableEq, Repr, Inhabited

/-- The default output bundle, every port 0 (R13, R202). -/
def Out.zero : Out :=
  { err := 0, ill := 0, crc := 0, crcok := 0, nrdy := 0, stat := 0, ppm := 0,
    calst := 0, calval := 0, ver := 0, res := 0, fout := 0 }

/-- What stands on the output ports. -/
inductive OutStatus where
  /-- no transaction has completed since power-up: there is no observation yet (R221). -/
  | powerUp
  /-- the last transaction's outputs, as its rule gives them (R20). -/
  | valid
  /-- the last transaction's inputs were not held: its outputs are unspecified (R225). -/
  | unspecified
deriving DecidableEq, Repr

end Sys2Proof.Machine
end

