-- ==== Sys2Proof/Machine/Flags.lean ====
section
/-! DEFINITION. The result codes, their priority (spec/60_exceptions.md R201, R204) and the CRCOK flag
(spec/10_state.md R25). -/

namespace Sys2Proof.Machine

/-- The four result codes (R201). -/
inductive ErrCode where
  /-- the operation completed with no condition to report. -/
  | ok
  /-- a PPM frame with a good CRC and B0 bit 0 = 1. -/
  | notReady
  /-- the residue is not 0. -/
  | crcMismatch
  /-- a reserved command. -/
  | illegal
deriving DecidableEq, Repr

/-- The numbers of the result codes on the ERR port (R201). -/
def ErrCode.code : ErrCode → BitVec 2
  | .ok => 0
  | .notReady => 1
  | .crcMismatch => 2
  | .illegal => 3

/-- "ERR reports exactly one", ILLEGAL over CRC_MISMATCH over NOT_READY over OK (R204). -/
def selectErr (illegal badCrc notReady : Bool) : ErrCode :=
  if illegal then .illegal
  else if badCrc then .crcMismatch
  else if notReady then .notReady
  else .ok

/-- CRCOK from a residue: 1 exactly when it is 0 (R106, R130). -/
def crcOkFlag (r : Byte) : BitVec 1 := if r = 0 then 1 else 0

/-- ERR from a residue alone (R106, R131). -/
def residueErr (r : Byte) : BitVec 2 := (selectErr false (r != 0) false).code

/-- ERR of a PPM frame from its residue and its ready flag (R133). -/
def ppmErr (r : Byte) (nrdy : BitVec 1) : BitVec 2 := (selectErr false (r != 0) (nrdy == 1)).code

end Sys2Proof.Machine
end

