-- ==== Sys2Proof/Config.lean ====
section
/-! DEFINITION. What the spec leaves open: constants with no body that a proof can see, so that a theorem holds
whatever they are. -/

namespace Sys2Proof

/-- `LATENCY`, the time from stable inputs to valid outputs: an open parameter (R8, R227, D12). -/
opaque Config.latency : Nat

/-- What stands on the output ports before the first transaction completes: unspecified (R221, D18, I9). -/
opaque Config.powerUpOut : Machine.Out

/-- The outputs of the n-th transaction whose inputs were not held: any value (R225, D13, I1). -/
opaque Config.freeOut : Nat → Machine.Out

/-- Host side only: whether a successful frame write sets the driver's ErrorState to OK; the source says both
(spec/91_not_in_source.md N13). -/
opaque Config.writeClearsError : Bool

end Sys2Proof
end

