-- ==== Sys2Proof/Machine/State.lean ====
section
/-! DEFINITION. The state of the model. The block itself holds none (spec/10_state.md R20, R23 to R28): there is
no register, no program counter, no memory (spec/20_memory.md R40) and no mode. The state is the block's ports,
the transactions the host has yet to present, and the counter of free values. -/

namespace Sys2Proof.Machine

/-- Why the machine stops with a fault: never. "The block raises no synchronous exception and has no trap
mechanism" (R200), so the type has no constructor; a reserved command is a result code, not a fault (R203). -/
inductive Fault where
deriving DecidableEq, Repr

/-- Why the model refuses to go on. -/
inductive Refusal where
  /-- Raised by an arm of `exec` for an operation that has no meaning yet; no arm raises it now. Safe: the model
  stops where the block would go on. -/
  | notModelled (mnemonic : String)
deriving DecidableEq, Repr

/-- The ports of the block and the host's presentations to come. -/
structure State where
  /-- The input ports CMD, D and VALUE, as the host presents them (R21). -/
  inp : Inputs
  /-- The output ports (R22). -/
  out : Out
  /-- Whether `out` is the result of a transaction (R20), unspecified (R225), or not yet observable (R221). -/
  outStatus : OutStatus
  /-- What the host presents next, in its order, one presentation per transaction (R24, R50); when it is empty
  the host leaves the ports as they stand. -/
  schedule : List Inputs
  /-- MODEL'S OWN: how many free output bundles have been drawn (R225). -/
  freeDraws : Nat
deriving DecidableEq, Repr

/-- Power-up. The block has no reset input (R220); its output ports are unspecified and not observable before
the first transaction completes (R221). The input ports are the host's and the spec gives them no value (R26):
they stand at 0 until the host presents a transaction (DESIGN CHOICE, log entry 2). -/
def State.reset : State where
  inp := { cmd := 0, d := 0, value := 0, change := none }
  out := Config.powerUpOut
  outStatus := .powerUp
  schedule := []
  freeDraws := 0

end Sys2Proof.Machine
end

