-- ==== Sys2Proof/Machine/Ops.lean ====
section
/-! DEFINITION. The operations the meanings share. The block has no memory and no registers (R40, R23), so these
are: the host's next presentation, the stability of the inputs, driving the output ports, the common parse step of
the decoders, the common part of the frame generators, and the reserved command. The block has no exception entry
and no return (R200, R207); the one report of an illegal command is `illegalOut`. -/

namespace Sys2Proof.Machine

/-- The host presents a transaction's inputs (R45, R47). -/
def State.present (s : State) (p : Inputs) : State := { s with inp := p }

/-- The host's next presentation stands on the ports, if it has one (R24, R50). DESIGN CHOICE (log entries 1 and 19):
otherwise the ports stay as they are, so the last presentation repeats whole, with the CMD, D and VALUE it began with and
the same `change`, also where `change` says that the host changed an input: the spec does not say what stands on the
ports after such a change. -/
def State.advance (s : State) : State :=
  match s.schedule with
  | [] => s
  | p :: rest => { s with inp := p, schedule := rest }

/-- The inputs are held "from the start of a transaction until its outputs are valid, LATENCY later" (R225). A change
at the very end of the window counts as inside it (log entry 5). -/
def Inputs.held (p : Inputs) : Bool :=
  match p.change with
  | none => true
  | some t => decide (Config.latency < t)

/-- Drive every output port of the transaction at once (R45): nothing else changes. -/
def State.drive (s : State) (o : Out) : State := { s with out := o, outStatus := .valid }

/-- A transaction whose inputs were not held: every output is unspecified, a free value (R225, I1). -/
def State.driveUnspecified (s : State) : State :=
  { s with out := Config.freeOut s.freeDraws, outStatus := .unspecified, freeDraws := s.freeDraws + 1 }

/-- What a host may observe: nothing before the first transaction completes (R221). -/
def State.observe (s : State) : Option Out :=
  match s.outStatus with
  | .powerUp => none
  | .valid => some s.out
  | .unspecified => some s.out

/-- The checking operations' common outputs (R106, R130, R131): the residue, CRCOK, and ERR from the residue
alone, over the default bundle (R13). -/
def checkOut (d : Frame) : Out :=
  { Out.zero with crc := residue d, crcok := crcOkFlag (residue d), err := residueErr (residue d) }

/-- The generating operations' common outputs (R105, R170): the generated CRC byte and the completed frame. -/
def generateOut (b0 b1 b2 b3 : Byte) : Out :=
  { Out.zero with
    crc := crc8 [b0, b1, b2, b3]
    fout := packFrame b0 b1 b2 b3 (crc8 [b0, b1, b2, b3])
    crcok := 1
    err := ErrCode.ok.code }

/-- The ILLEGAL result: every output 0 but ILL = 1 and ERR = ILLEGAL (R203). -/
def illegalOut : Out :=
  { Out.zero with ill := 1, err := (selectErr true false false).code }

end Sys2Proof.Machine
end

