-- ==== Sys2Proof/Machine/Build.lean ====
section
/-! DEFINITION. BLD.CAL (spec/42_frame_build.md R170). -/

namespace Sys2Proof.Machine

/-- `BLD.CAL` (R170): the write frame 00 00 VALUE[15:8] VALUE[7:0] and its CRC byte; D is not read. -/
def execBldCal (s : State) : Host.Outcome State Fault Refusal :=
  .next (s.drive (generateOut 0x00 0x00 (highByte s.inp.value) (lowByte s.inp.value)))

end Sys2Proof.Machine
end

