-- ==== Sys2Proof/Machine/CrcOps.lean ====
section
/-! DEFINITION. CRCGEN and CRCCHK (spec/40_crc.md R105, R106). -/

namespace Sys2Proof.Machine

/-- `CRCGEN` (R105): the CRC byte of B0 to B3 and the completed frame; D[7:0] and VALUE are not read. -/
def execCrcgen (s : State) : Host.Outcome State Fault Refusal :=
  .next (s.drive (generateOut (frameByte s.inp.d 0) (frameByte s.inp.d 1) (frameByte s.inp.d 2) (frameByte s.inp.d 3)))

/-- `CRCCHK` (R106): the residue of the frame, CRCOK and ERR; VALUE is not read. -/
def execCrcchk (s : State) : Host.Outcome State Fault Refusal :=
  .next (s.drive (checkOut s.inp.d))

end Sys2Proof.Machine
end

