-- ==== Sys2Proof/Machine/Views.lean ====
section
/-! DEFINITION. The frame decoders (spec/41_decode.md R130 to R137). Each drives its fields whether or not the
residue is 0 (R137). -/

namespace Sys2Proof.Machine

/-- `DEC.VER` (R132). -/
def execDecVer (s : State) : Host.Outcome State Fault Refusal :=
  .next (s.drive { checkOut s.inp.d with ver := versionByte s.inp.d })

/-- `DEC.PPM` (R133): ERR is CRC_MISMATCH over NOT_READY over OK. -/
def execDecPpm (s : State) : Host.Outcome State Fault Refusal :=
  .next (s.drive
    { checkOut s.inp.d with
      stat := deviceStatus s.inp.d
      nrdy := readyFlag s.inp.d
      ppm := concentration s.inp.d
      err := ppmErr (residue s.inp.d) (readyFlag s.inp.d) })

/-- `DEC.RES` (R134): the raw 24-bit magnitude times 10, in 32 bits. -/
def execDecRes (s : State) : Host.Outcome State Fault Refusal :=
  .next (s.drive { checkOut s.inp.d with res := resistance s.inp.d })

/-- `DEC.CAL` (R135). -/
def execDecCal (s : State) : Host.Outcome State Fault Refusal :=
  .next (s.drive
    { checkOut s.inp.d with
      calst := calibrationStatus s.inp.d
      calval := calibrationValue s.inp.d })

/-- `DEC.GEN` (R136): the frame passes through as received; the selector is ignored (D20). -/
def execDecGen (_sel : Byte) (s : State) : Host.Outcome State Fault Refusal :=
  .next (s.drive { checkOut s.inp.d with fout := s.inp.d })

end Sys2Proof.Machine
end

