-- ==== Sys2Proof/Machine/Dispatch.lean ====
section
/-! DEFINITION. One arm per operation of the opcode map (spec/30_encoding.md R63). -/

namespace Sys2Proof.Machine

def exec (i : Instr) (s : State) : Host.Outcome State Fault Refusal :=
  match i with
  | .crcgen => Sys2Proof.Machine.execCrcgen s
  | .crcchk => Sys2Proof.Machine.execCrcchk s
  | .decPpm => Sys2Proof.Machine.execDecPpm s
  | .decCal => Sys2Proof.Machine.execDecCal s
  | .decVer => Sys2Proof.Machine.execDecVer s
  | .decRes => Sys2Proof.Machine.execDecRes s
  | .decGen sel => Sys2Proof.Machine.execDecGen sel s
  | .bldCal => Sys2Proof.Machine.execBldCal s

end Sys2Proof.Machine
end

