-- ==== Sys2Proof/Machine/Illegal.lean ====
section
/-! DEFINITION. The reserved commands (spec/60_exceptions.md R203). -/

namespace Sys2Proof.Machine

/-- A reserved command yields the ILLEGAL result; D and VALUE are not read, and nothing is kept (R65, R203). -/
def execReserved (s : State) : Host.Outcome State Fault Refusal :=
  .next (s.drive illegalOut)

end Sys2Proof.Machine
end

