-- ==== Sys2Proof/Machine/Step.lean ====
section
/-! DEFINITION. One step is one transaction, an atomic step (spec/70_reset_and_hazards.md R227): the host's next
presentation stands on the ports, the command is decoded (R64), and the outputs are driven. -/

namespace Sys2Proof.Machine

/-- One transaction on inputs that are held: the operation CMD selects, or the ILLEGAL result (R64, R65). -/
def transact (s : State) : Host.Outcome State Fault Refusal :=
  match decode s.inp.cmd with
  | .ok i => exec i s
  | .error _ => execReserved s

/-- One step (R50, R225, R227). -/
def step (s : State) : Host.Outcome State Fault Refusal :=
  if s.advance.inp.held then transact s.advance
  else .next s.advance.driveUnspecified

/-- The state in which the host presents, next, the command whose bits are `w` (of which `nbits` count), with D and
VALUE as they stand on the ports, and holds the inputs. The CMD port carries bits 10:0 (R60). -/
def State.withFetchWord (s : State) (nbits w : Nat) : State :=
  { s with
    inp := { s.inp with cmd := BitVec.ofNat 11 (w % 2 ^ nbits), change := none }
    schedule := [] }

end Sys2Proof.Machine
end

