-- ==== Sys2Proof/Machine/Session.lean ====
section
/-! DEFINITION. The block as a function of one transaction's inputs (spec/10_state.md R20), and the bundles a host
sees over a sequence of transactions (spec/95_test_vectors.md section 3). -/

namespace Sys2Proof.Machine

/-- The ports of one transaction whose inputs the host holds. -/
def Inputs.steady (cmd : Cmd) (d : Frame) (value : Half) : Inputs :=
  { cmd := cmd, d := d, value := value, change := none }

/-- `CFB(CMD, D, VALUE) -> Out` (R20): the bundle of one transaction, as the step gives it. -/
def cfb (cmd : Cmd) (d : Frame) (value : Half) : Out :=
  match step (State.reset.present (Inputs.steady cmd d value)) with
  | .next t => t.out
  | .fault _ => Out.zero
  | .refused _ => Out.zero

/-- The host has the transactions `ps` to present, in this order (R50). -/
def State.withSchedule (s : State) (ps : List Inputs) : State := { s with schedule := ps }

/-- One transaction that the host presents on `p`, before whatever else it has to present (R14, R50). -/
def transaction (s : State) (p : Inputs) : Host.Outcome State Fault Refusal :=
  step { s with schedule := p :: s.schedule }

/-- The output bundles of the next `n` transactions, first to last. -/
def transcript : Nat → State → List Out
  | 0, _ => []
  | n + 1, s =>
    match step s with
    | .next t => t.out :: transcript n t
    | .fault _ => []
    | .refused _ => []

end Sys2Proof.Machine
end

