-- ==== Sys2Proof/Machine/Assembler.lean ====
section
/-! DEFINITION. The spec's assembler syntax (spec/30_encoding.md R68) as abstract syntax: one line is one
transaction. The text itself (letters, the 0x prefix, comments) is not modelled: R68's line is read as its mnemonic
and the operands it writes. -/

namespace Sys2Proof.Machine

/-- One line of R68. -/
inductive Line where
  /-- `crcgen D=…` -/
  | crcgen (d : Frame)
  /-- `crcchk D=…` -/
  | crcchk (d : Frame)
  /-- `dec.ppm D=…` -/
  | decPpm (d : Frame)
  /-- `dec.cal D=…` -/
  | decCal (d : Frame)
  /-- `dec.ver D=…` -/
  | decVer (d : Frame)
  /-- `dec.res D=…` -/
  | decRes (d : Frame)
  /-- `dec.gen sel=…, D=…`; `none` where the line omits sel -/
  | decGen (sel : Option Byte) (d : Frame)
  /-- `bld.cal VALUE=…` -/
  | bldCal (value : Half)
  /-- `.cmd 0x<3 hex digits>, D=…, VALUE=…`, for a reserved command: three hex digits are 12 bits -/
  | rawCmd (cmd : BitVec 12) (d : Frame) (value : Half)
deriving DecidableEq, Repr

/-- A `.cmd` line is for an 11-bit command that is reserved; every other line is well formed (R67, R68). -/
def Line.wellFormed : Line → Bool
  | .rawCmd c _ _ => decide (c < 0x800) && !selectsOperation (c.setWidth 11)
  | .crcgen _ => true
  | .crcchk _ => true
  | .decPpm _ => true
  | .decCal _ => true
  | .decVer _ => true
  | .decRes _ => true
  | .decGen _ _ => true
  | .bldCal _ => true

/-- The operation a line names, if it names one. -/
def Line.operation : Line → Option Instr
  | .crcgen _ => some .crcgen
  | .crcchk _ => some .crcchk
  | .decPpm _ => some .decPpm
  | .decCal _ => some .decCal
  | .decVer _ => some .decVer
  | .decRes _ => some .decRes
  | .decGen sel _ => some (.decGen (sel.getD 0))
  | .bldCal _ => some .bldCal
  | .rawCmd _ _ _ => none

/-- A line assembles to the triple (CMD, D, VALUE); an operand it omits is 0 (R68). -/
def Line.assemble : Line → Inputs
  | .crcgen d => Inputs.steady (encode .crcgen) d 0
  | .crcchk d => Inputs.steady (encode .crcchk) d 0
  | .decPpm d => Inputs.steady (encode .decPpm) d 0
  | .decCal d => Inputs.steady (encode .decCal) d 0
  | .decVer d => Inputs.steady (encode .decVer) d 0
  | .decRes d => Inputs.steady (encode .decRes) d 0
  | .decGen sel d => Inputs.steady (encode (.decGen (sel.getD 0))) d 0
  | .bldCal v => Inputs.steady (encode .bldCal) 0 v
  | .rawCmd c d v => Inputs.steady (c.setWidth 11) d v

/-- The ports of a transaction written down as numbers; a well-formed one fits its ports (R21, R44). -/
def rawInputs (t : RawTransaction) : Inputs :=
  Inputs.steady (BitVec.ofNat 11 t.cmd) (BitVec.ofNat 40 t.d) (BitVec.ofNat 16 t.value)

end Sys2Proof.Machine
end

