-- ==== Sys2Proof/Machine/Driver.lean ====
section
/-! DEFINITION. The host side of the interface: the surrounding driver's state (spec/10_state.md R29) and how its
operations use the block (spec/20_memory.md R47 to R52). The driver is NOT part of the block and no field of it is
part of State (R6, R29); the bus transport and the clock are its inputs. -/

namespace Sys2Proof.Machine.Driver

/-- The driver's ErrorState (R52, R205). -/
inductive ErrorState where
  /-- no error -/
  | ok
  /-- the transport's raw bus error code (R205, I7) -/
  | busTransmissionError (code : Nat)
  /-- the frame's residue was not 0 -/
  | crcMismatch
  /-- the device reported not-ready -/
  | notReady
  /-- fewer than 5 bytes arrived -/
  | shortRead
deriving DecidableEq, Repr

/-- The driver's record of the device status: OK after reset, later byte 0 of a PPM frame (R29). -/
inductive DeviceStatus where
  /-- OK, as `reset()` leaves it; the source gives this value no number -/
  | ok
  /-- byte 0 of the last PPM frame -/
  | captured (b : Byte)
deriving DecidableEq, Repr

/-- The driver's state (R29), one field per row of its table. -/
structure HostState where
  /-- the 5-byte scratch buffer -/
  buffer : Frame
  /-- the sticky ErrorState -/
  err : ErrorState
  /-- the cached concentration -/
  cache : BitVec 24
  /-- the last-read timestamp -/
  lastRead : Nat
  /-- the device status -/
  status : DeviceStatus
  /-- the PreheatTimer's timestamp -/
  preheat : Nat
  /-- the fixed 7-bit bus address; its value is not in the source (I6) -/
  address : BitVec 7
deriving DecidableEq, Repr

/-- What the transport answers to a frame read (R48). On a failure it says what it leaves in the scratch buffer,
which no source states. -/
inductive ReadResult where
  /-- the address write succeeded and all 5 bytes arrived, in bus order, B0 first (R47) -/
  | frame (b0 b1 b2 b3 b4 : Byte)
  /-- the address write failed with this bus error code -/
  | busError (code : Nat) (buffer : Frame)
  /-- fewer than 5 bytes were returned -/
  | short (buffer : Frame)
deriving DecidableEq, Repr

/-- What the transport answers to a frame write (R49). -/
inductive WriteResult where
  /-- the write succeeded -/
  | done
  /-- the address write or `endTransmission` failed with this bus error code -/
  | busError (code : Nat)
deriving DecidableEq, Repr

/-- The caller's output of readCalibrationData (R51). -/
structure Calibration where
  /-- the status word -/
  status : Half
  /-- the value word -/
  value : Half
deriving DecidableEq, Repr

/-- The caller's output of readGenericRegister (R51). -/
structure Generic where
  /-- the 4 data bytes, byte 0 first -/
  data : List Byte
  /-- the CRC byte -/
  crc : Byte
  /-- the CRC was validated -/
  crcValid : Bool
deriving DecidableEq, Repr

/-- The driver's `reset()` at the time `now` (R29, R220). -/
def reset (now : Nat) (h : HostState) : HostState :=
  { h with err := .ok, cache := 0, lastRead := 0, status := .ok, preheat := now }

/-- The driver's `initialize` at the time `now`: the preheat timestamp (R29). -/
def initializeAt (now : Nat) (h : HostState) : HostState := { h with preheat := now }

/-- `consumeLastError`: read and clear (R29, V7). -/
def consumeLastError (h : HostState) : HostState × ErrorState := ({ h with err := .ok }, h.err)

/-- A frame read's effect on the driver: the buffer, and the ErrorState (R48, R52). -/
def receive (r : ReadResult) (h : HostState) : HostState :=
  match r with
  | .frame b0 b1 b2 b3 b4 => { h with buffer := packFrame b0 b1 b2 b3 b4, err := .ok }
  | .busError code buffer => { h with buffer := buffer, err := .busTransmissionError code }
  | .short buffer => { h with buffer := buffer, err := .shortRead }

/-- The block's ERR mapped onto the ErrorState (R52); OK and ILLEGAL leave it. -/
def record (e : BitVec 2) (h : HostState) : HostState :=
  if e = ErrCode.notReady.code then { h with err := .notReady }
  else if e = ErrCode.crcMismatch.code then { h with err := .crcMismatch }
  else h

/-- The transaction the driver issues on its scratch buffer (R47, R51): VALUE is not read by these commands. -/
def blockOn (i : Instr) (h : HostState) : Out := cfb (encode i) h.buffer 0

/-- `readVersion` (R51): VER, or 0xFF on a transport failure. -/
def readVersion (r : ReadResult) (h : HostState) : HostState × Byte :=
  let h1 := receive r h
  match r with
  | .frame _ _ _ _ _ => (record (blockOn .decVer h1).err h1, (blockOn .decVer h1).ver)
  | .busError _ _ => (h1, 0xFF)
  | .short _ => (h1, 0xFF)

/-- `readConcentration` at the time `now` (R51): the cache and the last-read time follow ERR = OK alone; the device
status is captured from every frame. -/
def readConcentration (now : Nat) (r : ReadResult) (h : HostState) : HostState × BitVec 24 :=
  let h1 := receive r h
  match r with
  | .frame _ _ _ _ _ =>
    let o := blockOn .decPpm h1
    let h2 := { record o.err h1 with status := .captured o.stat }
    if o.err = ErrCode.ok.code then ({ h2 with cache := o.ppm, lastRead := now }, o.ppm) else (h2, h2.cache)
  | .busError _ _ => (h1, h1.cache)
  | .short _ => (h1, h1.cache)

/-- `readResistance` (R51): RES, or 0 if the frame read failed. -/
def readResistance (r : ReadResult) (h : HostState) : HostState × BitVec 32 :=
  let h1 := receive r h
  match r with
  | .frame _ _ _ _ _ => (record (blockOn .decRes h1).err h1, (blockOn .decRes h1).res)
  | .busError _ _ => (h1, 0)
  | .short _ => (h1, 0)

/-- `readCalibrationData` into the caller's `dest` (R51): `dest` is untouched unless ERR = OK. -/
def readCalibrationData (r : ReadResult) (dest : Calibration) (h : HostState) : HostState × Calibration × Bool :=
  let h1 := receive r h
  match r with
  | .frame _ _ _ _ _ =>
    let o := blockOn .decCal h1
    if o.err = ErrCode.ok.code then (record o.err h1, { status := o.calst, value := o.calval }, true)
    else (record o.err h1, dest, false)
  | .busError _ _ => (h1, dest, false)
  | .short _ => (h1, dest, false)

/-- `readGenericRegister(address)` into the caller's `dest` (R51). -/
def readGenericRegister (register : Byte) (r : ReadResult) (dest : Generic) (h : HostState) :
    HostState × Generic × Bool :=
  let h1 := receive r h
  match r with
  | .frame _ _ _ _ _ =>
    let o := blockOn (.decGen register) h1
    if o.err = ErrCode.ok.code then
      (record o.err h1, { data := dataBytes o.fout, crc := frameByte o.fout 4, crcValid := true }, true)
    else (record o.err h1, dest, false)
  | .busError _ _ => (h1, dest, false)
  | .short _ => (h1, dest, false)

/-- The bytes the host transmits for a calibration write: the register address 0x01, then FOUT's five bytes, byte 0
first (R49). -/
def calibrationWrite (value : Half) : List Byte := 0x01 :: frameBytes (cfb (encode .bldCal) 0 value).fout

/-- `manualZeroCalibration(value)` (R51): the frame is built in the scratch buffer, and the result is the
transport's success flag. Whether a success clears the ErrorState no source settles (N13). -/
def manualZeroCalibration (value : Half) (w : WriteResult) (h : HostState) : HostState × Bool :=
  let h1 := { h with buffer := (cfb (encode .bldCal) 0 value).fout }
  match w with
  | .done => ({ h1 with err := if Config.writeClearsError then .ok else h1.err }, true)
  | .busError code => ({ h1 with err := .busTransmissionError code }, false)

end Sys2Proof.Machine.Driver
end

