-- ==== Sys2Proof/Safety.lean ====
section
/-! DEFINITION. What the claims about a run mean: a step that goes on, and an output bundle whose parts agree. -/

namespace Sys2Proof.Machine

/-- The step answers a next state: no fault and no refusal (R200). -/
def State.goesOn (s : State) : Prop := ∃ t, step s = .next t

/-- The parts of a bundle agree, as every rule of the spec makes them: ILL and ERR (R203), ERR and CRCOK (R106, R131,
R133, R201), NRDY and STAT (R133), the range of RES (R134), and CRCOK with the frame on FOUT (R22). -/
structure Out.Consistent (o : Out) : Prop where
  /-- ILL is 1 exactly when ERR is ILLEGAL, and then every other output is 0. -/
  illegal : (o.ill = 1 ↔ o.err = 3) ∧ (o.ill = 1 → o = { Out.zero with ill := 1, err := 3 })
  /-- OK and NOT_READY come only with a good CRC. -/
  good : (o.err = 0 ∨ o.err = 1) → o.crcok = 1
  /-- CRC_MISMATCH comes exactly with a bad CRC of a command that is not reserved. -/
  mismatch : o.err = 2 ↔ o.crcok = 0 ∧ o.ill = 0
  /-- CRC_MISMATCH comes with a residue that is not 0. -/
  residueShown : o.err = 2 → o.crc ≠ 0
  /-- NOT_READY comes only with NRDY = 1. -/
  notReady : o.err = 1 → o.nrdy = 1
  /-- NRDY is bit 0 of STAT. -/
  ready : o.nrdy = o.stat.extractLsb' 0 1
  /-- RES is a multiple of 10 and at most 167772150. -/
  range : o.res.toNat % 10 = 0 ∧ o.res.toNat ≤ 167772150
  /-- A frame on FOUT has residue 0 exactly when CRCOK is 1. -/
  frame : o.fout ≠ 0 → (o.crcok = 1 ↔ residue o.fout = 0)

/-- The invariant of the machine: a bundle that a rule gave is consistent. A bundle that stands on the ports before the
first transaction, or after inputs that were not held, is unspecified and may be anything (R221, R225). -/
def State.Inv (s : State) : Prop := s.outStatus = .valid → s.out.Consistent

end Sys2Proof.Machine
end

