-- ==== Sys2Proof/Certificates/Slice0/Obligations.lean ====
section
/-! DEFINITION. The statements about the model, in the order of OBLIGATIONS.json. Each docstring names the rule of
spec/ it formalises. `Out.zero` is the default bundle of R13: a bundle written `{ Out.zero with … }` says that every
output not named is 0. A next state written `{ s with out := …, outStatus := .valid }` says that nothing else
changes. -/

open Sys2Proof Sys2Proof.Machine

/-! ### Operations -/

/-- R105, whole: the encoding, the outputs, that FOUT has residue 0, and the corner cases. -/
def Obligations.CrcgenResult : Prop :=
  decode 0x000 = .ok .crcgen ∧
  (∀ s : State, exec .crcgen s = .next { s with
    out := { Out.zero with
      crc := crc8 [s.inp.d.extractLsb' 32 8, s.inp.d.extractLsb' 24 8, s.inp.d.extractLsb' 16 8, s.inp.d.extractLsb' 8 8]
      fout := s.inp.d.extractLsb' 8 32 ++
        crc8 [s.inp.d.extractLsb' 32 8, s.inp.d.extractLsb' 24 8, s.inp.d.extractLsb' 16 8, s.inp.d.extractLsb' 8 8]
      crcok := 1
      err := 0 }
    outStatus := .valid }) ∧
  (∀ s : State, ∃ t, exec .crcgen s = .next t ∧ residue t.out.fout = 0) ∧
  (∀ (s : State) (d : Frame) (v : Half), d.extractLsb' 8 32 = s.inp.d.extractLsb' 8 32 →
    ∃ t u, exec .crcgen s = .next t ∧
      exec .crcgen { s with inp := { s.inp with d := d, value := v } } = .next u ∧ u.out = t.out) ∧
  crc8 [0x00, 0x00, 0x00, 0x00] = 0xD7 ∧ crc8 [0xFF, 0xFF, 0xFF, 0xFF] = 0x66 ∧
  (∀ s : State, s.inp.d = 0x0000123400 →
    ∃ t, exec .crcgen s = .next t ∧ t.out.crc = 0x61 ∧ t.out.fout = 0x0000123461)

/-- R106, whole: the encoding, the outputs, and the corner cases, the last of them that an error confined to one byte
of a valid frame gives a residue that is not 0. -/
def Obligations.CrcchkResult : Prop :=
  decode 0x100 = .ok .crcchk ∧
  (∀ s : State, exec .crcchk s = .next { s with
    out := { Out.zero with
      crc := residue s.inp.d
      crcok := if residue s.inp.d = 0 then 1 else 0
      err := if residue s.inp.d = 0 then 0 else 2 }
    outStatus := .valid }) ∧
  residue 0x0000000000 = crcByte 0xD7 0x00 ∧ residue 0x0000000000 ≠ 0 ∧
  residue 0x00000000D7 = 0 ∧ residue 0xFFFFFFFF66 = 0 ∧
  residue 0x000186A014 = 0 ∧ residue 0x000186A015 = 0x31 ∧
  (∀ (d e : Frame) (i : Nat), residue d = 0 → i < 5 →
    (∀ j, j < 5 → j ≠ i → frameByte e j = frameByte d j) → frameByte e i ≠ frameByte d i → residue e ≠ 0)

/-- R132, whole. -/
def Obligations.DecVerResult : Prop :=
  decode 0x211 = .ok .decVer ∧
  (∀ s : State, exec .decVer s = .next { s with
    out := { Out.zero with
      crc := residue s.inp.d
      crcok := if residue s.inp.d = 0 then 1 else 0
      ver := s.inp.d.extractLsb' 24 8
      err := if residue s.inp.d = 0 then 0 else 2 }
    outStatus := .valid }) ∧
  (∀ s : State, s.inp.d = 0xAAFF55AAB1 → ∃ t, exec .decVer s = .next t ∧ t.out.ver = 0xFF ∧ t.out.err = 0) ∧
  (∀ s : State, s.inp.d = 0x0007000034 →
    ∃ t, exec .decVer s = .next t ∧ t.out.ver = 0x07 ∧ t.out.crc = 0x00 ∧ t.out.crcok = 1 ∧ t.out.err = 0)

/-- R133, whole: CRC_MISMATCH over NOT_READY over OK, and PPM decoded regardless. -/
def Obligations.DecPpmResult : Prop :=
  decode 0x200 = .ok .decPpm ∧
  (∀ s : State, exec .decPpm s = .next { s with
    out := { Out.zero with
      crc := residue s.inp.d
      crcok := if residue s.inp.d = 0 then 1 else 0
      stat := s.inp.d.extractLsb' 32 8
      nrdy := s.inp.d.extractLsb' 32 1
      ppm := s.inp.d.extractLsb' 8 24
      err := if residue s.inp.d ≠ 0 then 2 else if s.inp.d.extractLsb' 32 1 = 1 then 1 else 0 }
    outStatus := .valid }) ∧
  (∀ s : State, s.inp.d = 0x00FFFFFFB1 → ∃ t, exec .decPpm s = .next t ∧ t.out.ppm = 0xFFFFFF ∧ t.out.err = 0) ∧
  (∀ s : State, s.inp.d = 0x00000000D7 → ∃ t, exec .decPpm s = .next t ∧ t.out.ppm = 0 ∧ t.out.err = 0) ∧
  (∀ s : State, s.inp.d = 0x000186A014 →
    ∃ t, exec .decPpm s = .next t ∧ t.out.ppm = 100000 ∧ t.out.stat = 0 ∧ t.out.nrdy = 0 ∧ t.out.crc = 0 ∧
      t.out.crcok = 1 ∧ t.out.err = 0)

/-- R134, whole: the product is the exact one, since it never overflows 32 bits. -/
def Obligations.DecResResult : Prop :=
  decode 0x220 = .ok .decRes ∧
  (∀ s : State, ∃ res : BitVec 32,
    res.toNat = (s.inp.d.extractLsb' 16 24).toNat * 10 ∧ res.toNat ≤ 167772150 ∧ res.toNat < 2 ^ 28 ∧
    exec .decRes s = .next { s with
      out := { Out.zero with
        crc := residue s.inp.d
        crcok := if residue s.inp.d = 0 then 1 else 0
        res := res
        err := if residue s.inp.d = 0 then 0 else 2 }
      outStatus := .valid }) ∧
  (∀ s : State, s.inp.d = 0xFFFFFF00CA → ∃ t, exec .decRes s = .next t ∧ t.out.res = 0x09FFFFF6) ∧
  (∀ s : State, s.inp.d = 0x00000000D7 → ∃ t, exec .decRes s = .next t ∧ t.out.res = 0) ∧
  (∀ s : State, s.inp.d = 0x0027100023 →
    ∃ t, exec .decRes s = .next t ∧ t.out.res = 100000 ∧ t.out.crc = 0x00 ∧ t.out.err = 0)

/-- R135, whole, with its read-back of a frame that BLD.CAL built. -/
def Obligations.DecCalResult : Prop :=
  decode 0x201 = .ok .decCal ∧
  (∀ s : State, exec .decCal s = .next { s with
    out := { Out.zero with
      crc := residue s.inp.d
      crcok := if residue s.inp.d = 0 then 1 else 0
      calst := s.inp.d.extractLsb' 24 16
      calval := s.inp.d.extractLsb' 8 16
      err := if residue s.inp.d = 0 then 0 else 2 }
    outStatus := .valid }) ∧
  (∀ s : State, ∃ t u, exec .bldCal s = .next t ∧
    exec .decCal { t with inp := { t.inp with d := t.out.fout } } = .next u ∧
    u.out.calst = 0x0000 ∧ u.out.calval = s.inp.value) ∧
  (∀ s : State, s.inp.d = 0x0001123427 →
    ∃ t, exec .decCal s = .next t ∧ t.out.calst = 0x0001 ∧ t.out.calval = 0x1234 ∧ t.out.crc = 0x00 ∧ t.out.err = 0)

/-- R136, whole: any selector, the frame as received, and CRCOK = 1 whenever ERR = OK. -/
def Obligations.DecGenResult : Prop :=
  (∀ sel : Byte, decode (0x300 + sel.setWidth 11) = .ok (.decGen sel)) ∧
  (∀ (sel : Byte) (s : State), exec (.decGen sel) s = .next { s with
    out := { Out.zero with
      crc := residue s.inp.d
      crcok := if residue s.inp.d = 0 then 1 else 0
      fout := s.inp.d
      err := if residue s.inp.d = 0 then 0 else 2 }
    outStatus := .valid }) ∧
  (∀ (sel : Byte) (s : State), ∃ t, exec (.decGen sel) s = .next t ∧ (t.out.err = 0 → t.out.crcok = 1)) ∧
  (∀ (sel : Byte) (s : State), s.inp.d = 0x123456789A →
    ∃ t, exec (.decGen sel) s = .next t ∧ t.out.fout = 0x123456789A ∧ t.out.crc = 0x23 ∧ t.out.crcok = 0 ∧
      t.out.err = 2)

/-- R170, whole: the frame {0x0000, VALUE, c}, that it has residue 0, and that CRCGEN of {0x0000, VALUE, 0x00} gives
the same FOUT and CRC. -/
def Obligations.BldCalResult : Prop :=
  decode 0x401 = .ok .bldCal ∧
  (∀ s : State, exec .bldCal s = .next { s with
    out := { Out.zero with
      crc := crc8 [0x00, 0x00, s.inp.value.extractLsb' 8 8, s.inp.value.extractLsb' 0 8]
      fout := (0x0000 : Half) ++ s.inp.value ++
        crc8 [0x00, 0x00, s.inp.value.extractLsb' 8 8, s.inp.value.extractLsb' 0 8]
      crcok := 1
      err := 0 }
    outStatus := .valid }) ∧
  (∀ s : State, ∃ t, exec .bldCal s = .next t ∧ residue t.out.fout = 0) ∧
  (∀ s : State, ∃ t u, exec .bldCal s = .next t ∧
    exec .crcgen { s with inp := { s.inp with d := (0x0000 : Half) ++ s.inp.value ++ (0x00 : Byte) } } = .next u ∧
    u.out.fout = t.out.fout ∧ u.out.crc = t.out.crc) ∧
  (∀ s : State, s.inp.value = 0x0000 → ∃ t, exec .bldCal s = .next t ∧ t.out.fout = 0x00000000D7) ∧
  (∀ s : State, s.inp.value = 0xFFFF → ∃ t, exec .bldCal s = .next t ∧ t.out.fout = 0x0000FFFFFA) ∧
  (∀ s : State, s.inp.value = 0x1234 →
    ∃ t, exec .bldCal s = .next t ∧ t.out.fout = 0x0000123461 ∧ t.out.crc = 0x61)

/-- R171: a frame that BLD.CAL built passes CRCCHK and reads back through DEC.CAL. -/
def Obligations.BuiltFrameValidates : Prop :=
  ∀ s : State, ∃ t u w, exec .bldCal s = .next t ∧
    exec .crcchk { t with inp := { t.inp with d := t.out.fout } } = .next u ∧ u.out.err = 0 ∧
    exec .decCal { t with inp := { t.inp with d := t.out.fout } } = .next w ∧
    w.out.calst = 0x0000 ∧ w.out.calval = s.inp.value

/-- Derived from R65 and R203: which commands are reserved, the bundle they yield, and that the next transaction is
unaffected. That the next state keeps the presentation (`inp := p`), also where an input changes after LATENCY, is the
model's choice of log entry 19. -/
def Obligations.ReservedCommandIllegal : Prop :=
  (∀ c : Cmd, selectsOperation c = false ↔
    (5 ≤ c.toNat / 256 ∨ (c.toNat / 256 ≤ 1 ∧ c.toNat % 256 ≠ 0x00) ∨
     (c.toNat / 256 = 2 ∧ c.toNat % 256 ∉ [0x00, 0x01, 0x11, 0x20]) ∨
     (c.toNat / 256 = 4 ∧ c.toNat % 256 ≠ 0x01))) ∧
  (∀ (s : State) (p : Inputs), p.held = true → selectsOperation p.cmd = false →
    transaction s p = .next { s with inp := p, out := { Out.zero with ill := 1, err := 3 }, outStatus := .valid }) ∧
  (∀ (s : State) (p q : Inputs), p.held = true → q.held = true → selectsOperation p.cmd = false →
    ∃ t u w, transaction s p = .next t ∧ transaction t q = .next u ∧ transaction s q = .next w ∧ u.out = w.out)

/-! ### The command word -/

/-- R64: the decode procedure clause by clause, on every command, and its two counts. -/
def Obligations.DecodeProcedure : Prop :=
  (∀ c : Cmd,
    (decode c = .ok .crcgen ↔ c.toNat / 256 = 0b000 ∧ c.toNat % 256 = 0x00) ∧
    (decode c = .ok .crcchk ↔ c.toNat / 256 = 0b001 ∧ c.toNat % 256 = 0x00) ∧
    (decode c = .ok .decPpm ↔ c.toNat / 256 = 0b010 ∧ c.toNat % 256 = 0x00) ∧
    (decode c = .ok .decCal ↔ c.toNat / 256 = 0b010 ∧ c.toNat % 256 = 0x01) ∧
    (decode c = .ok .decVer ↔ c.toNat / 256 = 0b010 ∧ c.toNat % 256 = 0x11) ∧
    (decode c = .ok .decRes ↔ c.toNat / 256 = 0b010 ∧ c.toNat % 256 = 0x20) ∧
    (∀ sel : Byte, decode c = .ok (.decGen sel) ↔ c.toNat / 256 = 0b011 ∧ c.toNat % 256 = sel.toNat) ∧
    (decode c = .ok .bldCal ↔ c.toNat / 256 = 0b100 ∧ c.toNat % 256 = 0x01)) ∧
  ((List.range 2048).filter (fun n => selectsOperation (BitVec.ofNat 11 n))).length = 263 ∧
  ((List.range 2048).filter (fun n => !selectsOperation (BitVec.ofNat 11 n))).length = 1785

/-- R63: the match and mask columns, that no two rows overlap, and that a command selects the row of exactly the
operation it decodes to. -/
def Obligations.OpcodeMap : Prop :=
  opcodeTable.map (fun r => (r.mnemonic, r.pattern.toNat, r.mask.toNat)) =
    [("CRCGEN", 0x000, 0x7FF), ("CRCCHK", 0x100, 0x7FF), ("DEC.PPM", 0x200, 0x7FF), ("DEC.CAL", 0x201, 0x7FF),
     ("DEC.VER", 0x211, 0x7FF), ("DEC.RES", 0x220, 0x7FF), ("DEC.GEN", 0x300, 0x700), ("BLD.CAL", 0x401, 0x7FF)] ∧
  opcodeTable.Pairwise (fun r q => ∀ c : Cmd, ¬ (r.selects c = true ∧ q.selects c = true)) ∧
  (∀ (c : Cmd) (r : OpcodeRow), r ∈ opcodeTable →
    (r.selects c = true ↔ ∃ i, decode c = .ok i ∧ rowOf i = r))

/-- Decode and encode agree, both ways: every operation's word decodes to it with its selector, and every word that
decodes to an operation is that operation's word (spec/30_encoding.md sections 1 to 3). -/
def Obligations.DecodeEncodeAgree : Prop :=
  (∀ i : Instr, decode (encode i) = .ok i) ∧ (∀ (c : Cmd) (i : Instr), decode c = .ok i → encode i = c)

/-- Words written out from the encoding column of R63 decode to their operations; spec/95_test_vectors.md V30's
reserved words to none. -/
def Obligations.WrittenWordsDecode : Prop :=
  decode 0b00000000000 = .ok .crcgen ∧ decode 0b00100000000 = .ok .crcchk ∧ decode 0b01000000000 = .ok .decPpm ∧
  decode 0b01000000001 = .ok .decCal ∧ decode 0b01000010001 = .ok .decVer ∧ decode 0b01000100000 = .ok .decRes ∧
  decode 0b01101000010 = .ok (.decGen 0x42) ∧ decode 0b10000000001 = .ok .bldCal ∧
  ([0x500, 0x600, 0x7FF, 0x001, 0x1FF, 0x202, 0x210, 0x221, 0x2FF, 0x400, 0x411].all
    fun c => !selectsOperation c) = true

/-- R61: an input that an operation ignores has no effect on any output. -/
def Obligations.IgnoredOperands : Prop :=
  (∀ (i : Instr) (s : State) (v : Half), i ≠ .bldCal →
    ∃ t u, exec i s = .next t ∧ exec i { s with inp := { s.inp with value := v } } = .next u ∧ u.out = t.out) ∧
  (∀ (s : State) (d : Frame), d.extractLsb' 8 32 = s.inp.d.extractLsb' 8 32 →
    ∃ t u, exec .crcgen s = .next t ∧ exec .crcgen { s with inp := { s.inp with d := d } } = .next u ∧
      u.out = t.out) ∧
  (∀ (s : State) (d : Frame),
    ∃ t u, exec .bldCal s = .next t ∧ exec .bldCal { s with inp := { s.inp with d := d } } = .next u ∧
      u.out = t.out) ∧
  (∀ (s : State) (a b : Byte),
    ∃ t u, exec (.decGen a) s = .next t ∧ exec (.decGen b) s = .next u ∧ u.out = t.out)

/-- R62: every decoded field is its slice of D, a number taken unsigned; RES is the slice times 10; the CRC byte D[7:0]
reaches the residue. The formulas are exact, so no other bit of D (the reserved byte D[15:8] of a RESISTANCE frame, the
CRC byte) reaches a field. -/
def Obligations.FieldSlices : Prop :=
  ∀ s : State, ∃ p c v r,
    exec .decPpm s = .next p ∧ exec .decCal s = .next c ∧ exec .decVer s = .next v ∧ exec .decRes s = .next r ∧
    p.out.nrdy.toNat = s.inp.d.toNat / 2 ^ 32 % 2 ∧
    p.out.stat.toNat = s.inp.d.toNat / 2 ^ 32 % 2 ^ 8 ∧
    p.out.ppm.toNat = s.inp.d.toNat / 2 ^ 8 % 2 ^ 24 ∧
    c.out.calst.toNat = s.inp.d.toNat / 2 ^ 24 % 2 ^ 16 ∧
    c.out.calval.toNat = s.inp.d.toNat / 2 ^ 8 % 2 ^ 16 ∧
    v.out.ver.toNat = s.inp.d.toNat / 2 ^ 24 % 2 ^ 8 ∧
    r.out.res.toNat = s.inp.d.toNat / 2 ^ 16 % 2 ^ 24 * 10 ∧
    p.out.crc = crcByte (crc8 (dataBytes s.inp.d)) (s.inp.d.extractLsb' 0 8)

/-- R41: byte i of a frame is bits [39-8*i : 32-8*i], and the frame is the sum of its bytes at their places. -/
def Obligations.FramePacking : Prop :=
  (∀ (d : Frame) (i : Nat), i ≤ 4 → (frameByte d i).toNat = d.toNat / 2 ^ (32 - 8 * i) % 2 ^ 8) ∧
  (∀ d : Frame, d.toNat = (frameByte d 0).toNat * 2 ^ 32 + (frameByte d 1).toNat * 2 ^ 24 +
    (frameByte d 2).toNat * 2 ^ 16 + (frameByte d 3).toNat * 2 ^ 8 + (frameByte d 4).toNat) ∧
  (∀ b0 b1 b2 b3 b4 : Byte, frameBytes (packFrame b0 b1 b2 b3 b4) = [b0, b1, b2, b3, b4])

/-- R42: the lower-numbered byte of a multi-byte field is the more significant, in each of the four fields. -/
def Obligations.BigEndianFields : Prop :=
  ∀ s : State, ∃ p c r b,
    exec .decPpm s = .next p ∧ exec .decCal s = .next c ∧ exec .decRes s = .next r ∧ exec .bldCal s = .next b ∧
    p.out.ppm.toNat = (frameByte s.inp.d 1).toNat * 2 ^ 16 + (frameByte s.inp.d 2).toNat * 2 ^ 8 +
      (frameByte s.inp.d 3).toNat ∧
    r.out.res.toNat = ((frameByte s.inp.d 0).toNat * 2 ^ 16 + (frameByte s.inp.d 1).toNat * 2 ^ 8 +
      (frameByte s.inp.d 2).toNat) * 10 ∧
    c.out.calst.toNat = (frameByte s.inp.d 0).toNat * 2 ^ 8 + (frameByte s.inp.d 1).toNat ∧
    c.out.calval.toNat = (frameByte s.inp.d 2).toNat * 2 ^ 8 + (frameByte s.inp.d 3).toNat ∧
    s.inp.value.toNat = (frameByte b.out.fout 2).toNat * 2 ^ 8 + (frameByte b.out.fout 3).toNat

/-! ### The CRC -/

/-- R100, as arithmetic on numbers. -/
def Obligations.BitStep : Prop :=
  ∀ c : Byte, (crcBit c).toNat =
    if 128 ≤ c.toNat then (2 * c.toNat % 256) ^^^ 0x31 else 2 * c.toNat

/-- R101: XOR the byte in, then eight bit steps; the result depends on c and b only through c ^ b. -/
def Obligations.ByteStep : Prop :=
  (∀ c b : Byte, crcByte c b =
    crcBit (crcBit (crcBit (crcBit (crcBit (crcBit (crcBit (crcBit (c ^^^ b))))))))) ∧
  (∀ c b e f : Byte, c ^^^ b = e ^^^ f → crcByte c b = crcByte e f)

/-- R102: the initial value, the bytes in list order, and no final step. -/
def Obligations.ChecksumOfList : Prop :=
  crc8 [] = 0xFF ∧ ∀ (bs : List Byte) (b : Byte), crc8 (bs ++ [b]) = crcByte (crc8 bs) b

/-- R103: the bit step fixes 0 and is a bijection, half by half; so is the 8-fold bit step. -/
def Obligations.BitStepBijective : Prop :=
  crcBit 0x00 = 0x00 ∧ Function.Bijective crcBit ∧
  (∀ c : Byte, c.toNat < 128 → (crcBit c).toNat = 2 * c.toNat) ∧
  (∀ c : Byte, 128 ≤ c.toNat → (crcBit c).toNat = (2 * c.toNat % 256) ^^^ 0x31 ∧ (crcBit c).toNat % 2 = 1) ∧
  (∀ y : Byte, y.toNat % 2 = 0 → ∃! c : Byte, c.toNat < 128 ∧ crcBit c = y) ∧
  (∀ y : Byte, y.toNat % 2 = 1 → ∃! c : Byte, 128 ≤ c.toNat ∧ crcBit c = y) ∧
  Function.Bijective (crcBit^[8]) ∧ crcBit^[8] 0 = 0

/-- R104, the residue lemma, and its last sentence: exactly one CRC byte gives residue 0. -/
def Obligations.ResidueLemma : Prop :=
  (∀ b0 b1 b2 b3 b4 : Byte, crc8 [b0, b1, b2, b3, b4] = 0 ↔ b4 = crc8 [b0, b1, b2, b3]) ∧
  (∀ b0 b1 b2 b3 : Byte, ∃! b4 : Byte, crc8 [b0, b1, b2, b3, b4] = 0)

/-- R108: linearity of the bit step and of the checksum over byte lists of equal length, the residue of a corrupted
valid frame, and its two examples. -/
def Obligations.CrcLinear : Prop :=
  (∀ a b : Byte, crcBit (a ^^^ b) = crcBit a ^^^ crcBit b) ∧
  (∀ x e : List Byte, x.length = e.length →
    crc8 (List.zipWith (· ^^^ ·) x e) = crc8 x ^^^ crc8From 0x00 e) ∧
  (∀ d e : Frame, residue d = 0 → residue (d ^^^ e) = crc8From 0x00 (frameBytes e)) ∧
  (∀ d : Frame, residue d = 0 → residue (d ^^^ 0x0000000001) = 0x31 ∧ residue (d ^^^ 0x0000000100) = 0xF4)

/-- A byte table indexed by c ^ b computes the same checksum as the bit steps: one of the realisations that
spec/40_crc.md section 3 (R107) names, by the byte step and the list step of its section 1 (R101, R102). -/
def Obligations.TableRealisation : Prop :=
  ∀ table : Byte → Byte, (∀ x, table x = crcByte 0x00 x) →
    ∀ bs : List Byte, bs.foldl (fun c b => table (c ^^^ b)) 0xFF = crc8 bs

/-! ### The whole machine -/

/-- R20: there is one function CFB that gives every output of every transaction from its inputs alone, whatever state
the earlier transactions left. -/
def Obligations.OutputsFromInputsAlone : Prop :=
  ∃ CFB : Cmd → Frame → Half → Out, ∀ (s : State) (p : Inputs), p.held = true →
    ∃ t, transaction s p = .next t ∧ t.out = CFB p.cmd p.d p.value

/-- R53 and R224, for whole runs of the machine's interface: a host's sequence of transactions, in any state the block
was left in, gives each transaction the bundle it has alone, so any reordering of the sequence reorders the bundles
and changes none. -/
def Obligations.SequenceGivesEachItsOwn : Prop :=
  (∀ (s : State) (ps : List Inputs), (∀ p ∈ ps, p.held = true) →
    transcript ps.length (s.withSchedule ps) = ps.map (fun p => cfb p.cmd p.d p.value)) ∧
  (∀ (s u : State) (ps qs : List Inputs), (∀ p ∈ ps, p.held = true) → ps.Perm qs →
    (transcript qs.length (u.withSchedule qs)).Perm (transcript ps.length (s.withSchedule ps)))

/-- Derived from R200: every step completes, with no fault and no refusal, and saves and transfers nothing: after the
host's next presentation stands on the ports, only the output bundle and its status (and, for unspecified outputs, the
free values' counter) move. How the next presentation comes to stand there is the model's choice of log entry 1, that
it stays there where an input changed that of log entry 19, and the counter that of log entry 4. That each condition is reported on ERR is Obligations.ResultCodePriority. -/
def Obligations.EveryStepCompletes : Prop :=
  ∀ s : State, s.goesOn ∧ ∃ (o : Out) (st : OutStatus) (n : Nat),
    step s = .next { s.advance with out := o, outStatus := st, freeDraws := n }

/-- R201 and R204: ERR of every transaction, by the priority ILLEGAL, CRC_MISMATCH, NOT_READY, OK; and what is recorded
with it: the residue on CRC, the device status on STAT, NRDY whatever ERR is. -/
def Obligations.ResultCodePriority : Prop :=
  ∀ (s : State) (p : Inputs), p.held = true → ∃ t, transaction s p = .next t ∧
    (∀ r, decode p.cmd = .error r → t.out.err = 3) ∧
    (decode p.cmd = .ok .crcgen → t.out.err = 0) ∧
    (decode p.cmd = .ok .bldCal → t.out.err = 0) ∧
    (∀ i, decode p.cmd = .ok i → i ∉ [.crcgen, .bldCal, .decPpm] →
      t.out.crc = residue p.d ∧ t.out.err = if residue p.d ≠ 0 then 2 else 0) ∧
    (decode p.cmd = .ok .decPpm →
      t.out.crc = residue p.d ∧ t.out.nrdy = p.d.extractLsb' 32 1 ∧ t.out.stat = p.d.extractLsb' 32 8 ∧
      t.out.err = if residue p.d ≠ 0 then 2 else if p.d.extractLsb' 32 1 = 1 then 1 else 0)

/-- R13 with the "written by" column of R22: an output port that an operation does not define is 0. -/
def Obligations.UndefinedOutputsZero : Prop :=
  ∀ (i : Instr) (s : State), ∃ t, exec i s = .next t ∧ t.out.ill = 0 ∧
    (i ≠ .decPpm → t.out.nrdy = 0 ∧ t.out.stat = 0 ∧ t.out.ppm = 0) ∧
    (i ≠ .decCal → t.out.calst = 0 ∧ t.out.calval = 0) ∧
    (i ≠ .decVer → t.out.ver = 0) ∧
    (i ≠ .decRes → t.out.res = 0) ∧
    (i ∈ [.crcchk, .decPpm, .decCal, .decVer, .decRes] → t.out.fout = 0)

/-- R130: every decoder reports the residue of the whole frame and CRCOK. With CRCCHK's own rule this is the same
residue under every view, the wrong one included (spec/41_decode.md R139). -/
def Obligations.ParseStepCommon : Prop :=
  ∀ (i : Instr) (s : State), i ∉ [.crcgen, .crcchk, .bldCal] → ∃ t, exec i s = .next t ∧
    t.out.crc = crc8 [frameByte s.inp.d 0, frameByte s.inp.d 1, frameByte s.inp.d 2, frameByte s.inp.d 3,
      frameByte s.inp.d 4] ∧
    t.out.crcok = if t.out.crc = 0 then 1 else 0

/-- R131: for the four views without a not-ready check, ERR depends on the residue alone. -/
def Obligations.ResidueAloneDecidesErr : Prop :=
  ∀ (i : Instr) (s : State), i ∉ [.crcgen, .crcchk, .bldCal, .decPpm] → ∃ t, exec i s = .next t ∧
    t.out.err = if residue s.inp.d = 0 then 0 else 2

/-- R137: each view's fields are their slices of the frame, for every frame, whatever its residue; and replacing the CRC
byte by any other, which makes a good frame bad, changes no field (FOUT is the frame itself). -/
def Obligations.BestEffortDecode : Prop :=
  ∀ (i : Instr) (s : State) (c : Byte), i ∉ [.crcgen, .crcchk, .bldCal] →
    ∃ t u, exec i s = .next t ∧
      exec i { s with inp := { s.inp with d := s.inp.d.extractLsb' 8 32 ++ c } } = .next u ∧
      u.out.ver = t.out.ver ∧ u.out.stat = t.out.stat ∧ u.out.nrdy = t.out.nrdy ∧ u.out.ppm = t.out.ppm ∧
      u.out.res = t.out.res ∧ u.out.calst = t.out.calst ∧ u.out.calval = t.out.calval ∧
      (i = .decVer → t.out.ver = s.inp.d.extractLsb' 24 8) ∧
      (i = .decPpm → t.out.stat = s.inp.d.extractLsb' 32 8 ∧ t.out.nrdy = s.inp.d.extractLsb' 32 1 ∧
        t.out.ppm = s.inp.d.extractLsb' 8 24) ∧
      (i = .decRes → t.out.res.toNat = (s.inp.d.extractLsb' 16 24).toNat * 10) ∧
      (i = .decCal → t.out.calst = s.inp.d.extractLsb' 24 16 ∧ t.out.calval = s.inp.d.extractLsb' 8 16) ∧
      (∀ sel, i = .decGen sel → t.out.fout = s.inp.d ∧ u.out.fout = s.inp.d.extractLsb' 8 32 ++ c)

/-- R138: bits 7 to 1 of B0 of a PPM frame reach STAT only, B3 of a RESISTANCE frame and B0, B2 and B3 of a VERSION
frame reach no field; and every such byte enters the residue: another value of it alone gives another residue. -/
def Obligations.BytesWithoutMeaning : Prop :=
  (∀ (s : State) (e : Frame), e.extractLsb' 0 33 = s.inp.d.extractLsb' 0 33 →
    ∃ t u, exec .decPpm s = .next t ∧ exec .decPpm { s with inp := { s.inp with d := e } } = .next u ∧
      u.out.nrdy = t.out.nrdy ∧ u.out.ppm = t.out.ppm ∧ u.out.stat = e.extractLsb' 32 8) ∧
  (∀ (s : State) (e : Frame), e.extractLsb' 16 24 = s.inp.d.extractLsb' 16 24 →
    ∃ t u, exec .decRes s = .next t ∧ exec .decRes { s with inp := { s.inp with d := e } } = .next u ∧
      u.out.res = t.out.res) ∧
  (∀ (s : State) (e : Frame), e.extractLsb' 24 8 = s.inp.d.extractLsb' 24 8 →
    ∃ t u, exec .decVer s = .next t ∧ exec .decVer { s with inp := { s.inp with d := e } } = .next u ∧
      u.out.ver = t.out.ver) ∧
  (∀ (d e : Frame) (i : Nat), i < 5 → (∀ j, j < 5 → j ≠ i → frameByte e j = frameByte d j) →
    frameByte e i ≠ frameByte d i → residue e ≠ residue d)

/-- The source's property V1 on the machine (spec/95_test_vectors.md section 1, spec/40_crc.md R104): the FOUT of any
CRCGEN, presented next to CRCCHK, gives ERR = OK, CRC = 0 and CRCOK = 1, and every other output 0 (R105, R106, R13). That the
host's presentations to come wait in State.schedule, and are left as they were, is the model's choice of log entry 1. -/
def Obligations.GeneratedFrameChecks : Prop :=
  ∀ (s : State) (d : Frame) (v w : Half), ∃ t u,
    transaction s (Inputs.steady 0x000 d v) = .next t ∧
    transaction t (Inputs.steady 0x100 t.out.fout w) = .next u ∧
    u.out = { Out.zero with err := 0, crc := 0, crcok := 1 } ∧ u.schedule = s.schedule

/-- R22's meaning of CRCOK over the whole opcode map: 1 exactly when the frame the operation consumed (the checking
operations' D) or produced (the generating operations' FOUT) has residue 0. -/
def Obligations.CrcokMeaning : Prop :=
  ∀ (i : Instr) (s : State), ∃ t, exec i s = .next t ∧
    (i ∉ [.crcgen, .bldCal] → (t.out.crcok = 1 ↔ residue s.inp.d = 0)) ∧
    (i ∈ [.crcgen, .bldCal] → (t.out.crcok = 1 ↔ residue t.out.fout = 0) ∧ t.out.crcok = 1)

/-- The frame of every operation: no operation changes an input port, the host's schedule, or the free values' counter
(spec/10_state.md R20, R26: nothing is latched; spec/20_memory.md R45: no side effect). -/
def Obligations.ExecChangesOutputsOnly : Prop :=
  ∀ (i : Instr) (s : State), ∃ o : Out, exec i s = .next { s with out := o, outStatus := .valid }

/-- R45's last sentences: presenting the same inputs again yields the same outputs and changes nothing more. That the
state keeps the presentation, also where an input changes after LATENCY, is the model's choice of log entry 19. -/
def Obligations.TransactionIdempotent : Prop :=
  ∀ (s : State) (p : Inputs), p.held = true →
    ∃ t, transaction s p = .next t ∧ transaction t p = .next t

/-- One step is exec of the decoded command on the ports, after the host's next presentation, when the inputs are
held. The clauses on advance are the model's choice, no rule of the spec: log entry 1 (the next presentation comes from
State.schedule, and the ports stay when nothing is scheduled) and log entry 19 (what stays is what was presented, even
where the host said that it changes an input). -/
def Obligations.StepRunsDecoded : Prop :=
  (∀ (s : State) (i : Instr), s.advance.inp.held = true → decode s.advance.inp.cmd = .ok i →
    step s = exec i s.advance) ∧
  (∀ s : State, s.schedule = [] → s.advance = s) ∧
  (∀ (s : State) (p : Inputs) (ps : List Inputs), s.schedule = p :: ps →
    s.advance = { s with inp := p, schedule := ps })

/-- A command placed as the host's next one is the one the next step runs. Placing it (State.withFetchWord empties the
schedule and holds the inputs) is the model's choice of log entry 1, and reading a number on the 11 bits of CMD that of
log entry 7; that the step runs what the command decodes to is R64. -/
def Obligations.FetchWordRuns : Prop :=
  ∀ (s : State) (nbits w : Nat) (i : Instr), decodeTableWord nbits w = some i →
    step (s.withFetchWord nbits w) = exec i (s.withFetchWord nbits w)

/-- R225: if an input changes inside the window, every output of that transaction is the next free value, and nothing
else but the host's presentation moves. The free values and their counter are the model's own (log entry 4), and so is
that a change exactly at LATENCY counts as inside the window (log entry 5). R225 does not say what stands on the input
ports after the change: that the next state keeps the presentation as it began (`inp := p`) is the model's choice of log
entry 19. -/
def Obligations.ChangedInputsUnspecified : Prop :=
  (∀ p : Inputs, p.held = false ↔ ∃ t, p.change = some t ∧ t ≤ Config.latency) ∧
  (∀ (s : State) (p : Inputs), p.held = false →
    transaction s p = .next { s with
      inp := p, out := Config.freeOut s.freeDraws, outStatus := .unspecified, freeDraws := s.freeDraws + 1 })

/-- R221 with R220: at power-up nothing is observable; from the first transaction on, its outputs are. -/
def Obligations.NothingObservedBeforeFirst : Prop :=
  State.reset.observe = none ∧
  (∀ p : Inputs, p.held = true →
    ∃ t, transaction State.reset p = .next t ∧ t.observe = some (cfb p.cmd p.d p.value)) ∧
  (∀ s : State, ∃ t, step s = .next t ∧ t.observe = some t.out)

/-- The invariant of the machine holds at power-up. -/
def Obligations.InvAtReset : Prop := State.reset.Inv

/-- Every step, from every state, keeps the invariant: the bundle a rule gave has parts that agree (spec/60_exceptions.md
R201, R203, R204; spec/41_decode.md R133, R134; spec/10_state.md R22). -/
def Obligations.StepKeepsInv : Prop :=
  ∀ s t : State, s.Inv → step s = .next t → t.Inv

/-! ### Assembler and host side -/

/-- R68: a line's triple runs the operation the line names on the operands it writes; an omitted sel is 0x00, an omitted
D or VALUE is 0; a well-formed `.cmd` line yields ILLEGAL. The run follows from R64, and the ILLEGAL result from R65 and
R203. Which `.cmd` lines are well formed is the model's reading of R67 and R68, log entry 12. -/
def Obligations.LineRunsItsOperation : Prop :=
  (∀ (l : Line) (i : Instr) (s : State), l.operation = some i →
    transaction s l.assemble = exec i (s.present l.assemble)) ∧
  (∀ d : Frame, (Line.crcgen d).assemble = Inputs.steady 0x000 d 0 ∧ (Line.crcchk d).assemble = Inputs.steady 0x100 d 0 ∧
    (Line.decPpm d).assemble = Inputs.steady 0x200 d 0 ∧ (Line.decCal d).assemble = Inputs.steady 0x201 d 0 ∧
    (Line.decVer d).assemble = Inputs.steady 0x211 d 0 ∧ (Line.decRes d).assemble = Inputs.steady 0x220 d 0 ∧
    (Line.decGen none d).assemble = Inputs.steady 0x300 d 0) ∧
  (∀ (d : Frame) (sel : Byte), (Line.decGen (some sel) d).assemble = Inputs.steady (0x300 + sel.setWidth 11) d 0) ∧
  (∀ v : Half, (Line.bldCal v).assemble = Inputs.steady 0x401 0 v) ∧
  (∀ (s : State) (c : BitVec 12) (d : Frame) (v : Half), (Line.rawCmd c d v).wellFormed = true →
    ∃ t, transaction s (Line.rawCmd c d v).assemble = .next t ∧ t.out = { Out.zero with ill := 1, err := 3 })

/-- The host policy of spec/20_memory.md R51 when a frame arrived: what each driver operation returns and keeps. -/
def Obligations.DriverUsesFrames : Prop :=
  ∀ (h : Driver.HostState) (b0 b1 b2 b3 b4 : Byte) (now : Nat) (dest : Driver.Calibration) (gen : Driver.Generic)
    (register : Byte),
    (Driver.readVersion (.frame b0 b1 b2 b3 b4) h).2 = b1 ∧
    ((Driver.readResistance (.frame b0 b1 b2 b3 b4) h).2.toNat =
      (b0.toNat * 2 ^ 16 + b1.toNat * 2 ^ 8 + b2.toNat) * 10) ∧
    (crc8 [b0, b1, b2, b3] = b4 → b0.toNat % 2 = 0 →
      (Driver.readConcentration now (.frame b0 b1 b2 b3 b4) h).2 = b1 ++ b2 ++ b3 ∧
      (Driver.readConcentration now (.frame b0 b1 b2 b3 b4) h).1.cache = b1 ++ b2 ++ b3 ∧
      (Driver.readConcentration now (.frame b0 b1 b2 b3 b4) h).1.lastRead = now ∧
      (Driver.readConcentration now (.frame b0 b1 b2 b3 b4) h).1.err = .ok) ∧
    (crc8 [b0, b1, b2, b3] = b4 → b0.toNat % 2 = 1 →
      (Driver.readConcentration now (.frame b0 b1 b2 b3 b4) h).2 = h.cache ∧
      (Driver.readConcentration now (.frame b0 b1 b2 b3 b4) h).1.cache = h.cache ∧
      (Driver.readConcentration now (.frame b0 b1 b2 b3 b4) h).1.lastRead = h.lastRead ∧
      (Driver.readConcentration now (.frame b0 b1 b2 b3 b4) h).1.err = .notReady) ∧
    (crc8 [b0, b1, b2, b3] = b4 →
      (Driver.readVersion (.frame b0 b1 b2 b3 b4) h).1.err = .ok ∧
      (Driver.readResistance (.frame b0 b1 b2 b3 b4) h).1.err = .ok ∧
      (Driver.readCalibrationData (.frame b0 b1 b2 b3 b4) dest h).2 =
        ({ status := b0 ++ b1, value := b2 ++ b3 }, true) ∧
      (Driver.readCalibrationData (.frame b0 b1 b2 b3 b4) dest h).1.err = .ok ∧
      (Driver.readGenericRegister register (.frame b0 b1 b2 b3 b4) gen h).2 =
        ({ data := [b0, b1, b2, b3], crc := b4, crcValid := true }, true) ∧
      (Driver.readGenericRegister register (.frame b0 b1 b2 b3 b4) gen h).1.err = .ok) ∧
    (crc8 [b0, b1, b2, b3] ≠ b4 →
      (Driver.readVersion (.frame b0 b1 b2 b3 b4) h).1.err = .crcMismatch ∧
      (Driver.readResistance (.frame b0 b1 b2 b3 b4) h).1.err = .crcMismatch ∧
      (Driver.readConcentration now (.frame b0 b1 b2 b3 b4) h).2 = h.cache ∧
      (Driver.readConcentration now (.frame b0 b1 b2 b3 b4) h).1.cache = h.cache ∧
      (Driver.readConcentration now (.frame b0 b1 b2 b3 b4) h).1.lastRead = h.lastRead ∧
      (Driver.readConcentration now (.frame b0 b1 b2 b3 b4) h).1.err = .crcMismatch ∧
      (Driver.readCalibrationData (.frame b0 b1 b2 b3 b4) dest h).2 = (dest, false) ∧
      (Driver.readCalibrationData (.frame b0 b1 b2 b3 b4) dest h).1.err = .crcMismatch ∧
      (Driver.readGenericRegister register (.frame b0 b1 b2 b3 b4) gen h).2 = (gen, false) ∧
      (Driver.readGenericRegister register (.frame b0 b1 b2 b3 b4) gen h).1.err = .crcMismatch)

/-- The source's properties V5 and V9 and the transport-failure half of spec/20_memory.md R51: version 0xFF, the cached
concentration with its timestamp unmodified, resistance 0, the caller's outputs untouched. -/
def Obligations.DriverTransportFailure : Prop :=
  ∀ (h : Driver.HostState) (r : Driver.ReadResult) (now : Nat) (dest : Driver.Calibration) (gen : Driver.Generic)
    (register : Byte) (e : Driver.ErrorState),
    ((∃ code buffer, r = .busError code buffer ∧ e = .busTransmissionError code) ∨
      (∃ buffer, r = .short buffer ∧ e = .shortRead)) →
    (Driver.readVersion r h).2 = 0xFF ∧ (Driver.readVersion r h).1.err = e ∧
    (Driver.readConcentration now r h).2 = h.cache ∧ (Driver.readConcentration now r h).1.cache = h.cache ∧
    (Driver.readConcentration now r h).1.lastRead = h.lastRead ∧ (Driver.readConcentration now r h).1.err = e ∧
    (Driver.readResistance r h).2 = 0 ∧ (Driver.readResistance r h).1.err = e ∧
    (Driver.readCalibrationData r dest h).2 = (dest, false) ∧ (Driver.readCalibrationData r dest h).1.err = e ∧
    (Driver.readGenericRegister register r gen h).2 = (gen, false) ∧
    (Driver.readGenericRegister register r gen h).1.err = e

/-- R49: the register address 0x01, then FOUT's five bytes, byte 0 first, for the frame BLD.CAL gives; and the success
flag of the write is the transport's (R51). -/
def Obligations.CalibrationWriteBytes : Prop :=
  (∀ v : Half, Driver.calibrationWrite v =
    [0x01, 0x00, 0x00, v.extractLsb' 8 8, v.extractLsb' 0 8,
      crc8 [0x00, 0x00, v.extractLsb' 8 8, v.extractLsb' 0 8]]) ∧
  (∀ (v : Half) (h : Driver.HostState), (Driver.manualZeroCalibration v .done h).2 = true) ∧
  (∀ (v : Half) (code : Nat) (h : Driver.HostState),
    (Driver.manualZeroCalibration v (.busError code) h).2 = false)

/-- R52 with the source's property V7: the map of the four ERR codes onto the sticky ErrorState, and that a second
consume returns OK. -/
def Obligations.DriverErrorMapping : Prop :=
  ∀ h : Driver.HostState,
    (Driver.record 1 h).err = .notReady ∧ (Driver.record 2 h).err = .crcMismatch ∧
    (Driver.record 0 h) = h ∧ (Driver.record 3 h) = h ∧
    (Driver.consumeLastError h).2 = h.err ∧
    (Driver.consumeLastError (Driver.consumeLastError h).1).2 = .ok
end

