-- ==== Sys2Proof/Laws/Crc.lean ====
section
/-! SUPPORT. The CRC-8 function: each layer's equation, linearity over XOR, and that a byte step loses nothing. -/

namespace Sys2Proof.Machine

theorem crc8From_nil (c : Byte) : crc8From c [] = c := rfl

theorem crc8From_cons (c b : Byte) (bs : List Byte) : crc8From c (b :: bs) = crc8From (crcByte c b) bs := rfl

theorem crc8From_append (c : Byte) (xs ys : List Byte) :
    crc8From c (xs ++ ys) = crc8From (crc8From c xs) ys := by
  simp [crc8From]

theorem crc8_nil : crc8 [] = 0xFF := rfl

theorem crc8_snoc (bs : List Byte) (b : Byte) : crc8 (bs ++ [b]) = crcByte (crc8 bs) b := by
  simp [crc8, crc8From]

theorem crcBit_zero : crcBit 0 = 0 := by decide

theorem crcBit_xor (a b : Byte) : crcBit (a ^^^ b) = crcBit a ^^^ crcBit b := by
  unfold crcBit
  rw [BitVec.getLsbD_xor, BitVec.shiftLeft_xor_distrib]
  have cancel (x y : Byte) : x ^^^ crcPoly ^^^ (y ^^^ crcPoly) = (crcPoly ^^^ crcPoly) ^^^ (x ^^^ y) := by ac_rfl
  cases a.getLsbD 7 <;> cases b.getLsbD 7 <;> simp only [Bool.xor_false, Bool.xor_true, Bool.not_false,
    Bool.not_true, if_true, if_false, Bool.false_eq_true, cancel, BitVec.xor_self, BitVec.zero_xor] <;> ac_rfl

/-- Only 0 is sent to 0 by a bit step (R103). -/
theorem crcBit_eq_zero (c : Byte) (h : crcBit c = 0) : c = 0 := by
  revert c; decide

theorem xor_eq_zero_iff {w : Nat} (a b : BitVec w) : a ^^^ b = 0 ↔ a = b := by
  constructor
  · intro h
    have := congrArg (· ^^^ b) h
    simpa [BitVec.xor_assoc] using this
  · rintro rfl; simp

theorem crcBit_injective : Function.Injective crcBit := by
  intro a b h
  refine (xor_eq_zero_iff a b).1 (crcBit_eq_zero _ ?_)
  rw [crcBit_xor, h, BitVec.xor_self]; rfl

theorem crcBits_zero (n : Nat) : crcBit^[n] 0 = 0 := by
  induction n with
  | zero => rfl
  | succ n ih => rw [Function.iterate_succ_apply, crcBit_zero, ih]

theorem crcBits_xor (n : Nat) (a b : Byte) : crcBit^[n] (a ^^^ b) = crcBit^[n] a ^^^ crcBit^[n] b := by
  induction n generalizing a b with
  | zero => rfl
  | succ n ih => rw [Function.iterate_succ_apply, crcBit_xor, ih]; rfl

theorem crcBits_injective (n : Nat) : Function.Injective crcBit^[n] := crcBit_injective.iterate n

/-- A byte step gives 0 exactly when the byte equals the running CRC (R104's key). -/
theorem crcByte_eq_zero_iff (c b : Byte) : crcByte c b = 0 ↔ c = b := by
  rw [← xor_eq_zero_iff c b]
  constructor
  · intro h; exact crcBits_injective 8 (h.trans (crcBits_zero 8).symm)
  · intro h; simp only [crcByte, h]; exact crcBits_zero 8

/-- Two bytes of a running CRC and of data go in by XOR alone, and XOR comes out (R108). -/
theorem crcByte_xor (c e b f : Byte) : crcByte (c ^^^ e) (b ^^^ f) = crcByte c b ^^^ crcByte e f := by
  rw [crcByte, crcByte, crcByte, ← crcBits_xor]
  congr 1
  ac_rfl

theorem crcByte_right_injective (c : Byte) : Function.Injective (crcByte c) := by
  intro a b h
  have := crcBits_injective 8 h
  simpa using this

theorem crcByte_left_injective (b : Byte) : Function.Injective (crcByte · b) := by
  intro c d h
  have := crcBits_injective 8 h
  simpa using this

theorem crc8From_injective (bs : List Byte) : Function.Injective (crc8From · bs) := by
  induction bs with
  | nil => intro a b h; exact h
  | cons x xs ih => intro a b h; exact crcByte_left_injective x (ih h)

end Sys2Proof.Machine
end

