-- ==== Sys2Proof/Laws/Decode.lean ====
section
/-! SUPPORT. The fields of a command word, and what decoding an operation's fields gives. -/

namespace Sys2Proof

theorem fnOf_commandWord (fn : BitVec 3) (sel : Byte) : fnOf (commandWord fn sel) = fn := by
  apply BitVec.eq_of_getLsbD_eq; intro i hi
  simp only [fnOf, commandWord, BitVec.getLsbD_extractLsb', BitVec.getLsbD_append]
  grind

theorem selOf_commandWord (fn : BitVec 3) (sel : Byte) : selOf (commandWord fn sel) = sel := by
  apply BitVec.eq_of_getLsbD_eq; intro i hi
  simp only [selOf, commandWord, BitVec.getLsbD_extractLsb', BitVec.getLsbD_append]
  grind

theorem commandWord_fnOf_selOf (c : Cmd) : commandWord (fnOf c) (selOf c) = c := by
  apply BitVec.eq_of_getLsbD_eq; intro i hi
  simp only [commandWord, fnOf, selOf, BitVec.getLsbD_extractLsb', BitVec.getLsbD_append]
  grind

theorem fnOf_toNat (c : Cmd) : (fnOf c).toNat = c.toNat / 256 := by
  have := c.isLt
  simp only [fnOf, BitVec.extractLsb'_toNat, Nat.shiftRight_eq_div_pow]
  omega

theorem selOf_toNat (c : Cmd) : (selOf c).toNat = c.toNat % 256 := by
  simp [selOf, BitVec.extractLsb'_toNat]

/-- Everything decoding can answer: one operation with its fields, or a reserved command's clause. -/
theorem decode_cases (c : Cmd) :
    (fnOf c = 0 ∧ selOf c = 0x00 ∧ decode c = .ok .crcgen) ∨
    (fnOf c = 1 ∧ selOf c = 0x00 ∧ decode c = .ok .crcchk) ∨
    (fnOf c = 2 ∧ selOf c = 0x00 ∧ decode c = .ok .decPpm) ∨
    (fnOf c = 2 ∧ selOf c = 0x01 ∧ decode c = .ok .decCal) ∨
    (fnOf c = 2 ∧ selOf c = 0x11 ∧ decode c = .ok .decVer) ∨
    (fnOf c = 2 ∧ selOf c = 0x20 ∧ decode c = .ok .decRes) ∨
    (fnOf c = 3 ∧ decode c = .ok (.decGen (selOf c))) ∨
    (fnOf c = 4 ∧ selOf c = 0x01 ∧ decode c = .ok .bldCal) ∨
    (decode c = .error (reservedReason c) ∧
      ¬ (fnOf c = 0 ∧ selOf c = 0x00) ∧ ¬ (fnOf c = 1 ∧ selOf c = 0x00) ∧ ¬ (fnOf c = 2 ∧ selOf c = 0x00) ∧
      ¬ (fnOf c = 2 ∧ selOf c = 0x01) ∧ ¬ (fnOf c = 2 ∧ selOf c = 0x11) ∧ ¬ (fnOf c = 2 ∧ selOf c = 0x20) ∧
      ¬ fnOf c = 3 ∧ ¬ (fnOf c = 4 ∧ selOf c = 0x01)) := by
  unfold decode
  repeat' split
  all_goals simp_all

end Sys2Proof
end

