-- ==== Sys2Proof/Laws/Operands.lean ====
section
/-! SUPPORT. Frames and their bytes: packing and unpacking agree, the decoded fields are contiguous slices, and the
CRC of a frame in terms of its bytes. -/

namespace Sys2Proof.Machine

/-- Unpacking a packed frame gives its bytes back. -/
theorem frameByte_packFrame (b0 b1 b2 b3 b4 : Byte) :
    frameByte (packFrame b0 b1 b2 b3 b4) 0 = b0 ∧ frameByte (packFrame b0 b1 b2 b3 b4) 1 = b1 ∧
    frameByte (packFrame b0 b1 b2 b3 b4) 2 = b2 ∧ frameByte (packFrame b0 b1 b2 b3 b4) 3 = b3 ∧
    frameByte (packFrame b0 b1 b2 b3 b4) 4 = b4 := by
  refine ⟨?_, ?_, ?_, ?_, ?_⟩ <;> apply BitVec.eq_of_getLsbD_eq <;> intro i hi <;>
    simp only [frameByte, packFrame, BitVec.getLsbD_extractLsb', BitVec.getLsbD_append, hi, decide_true, Bool.true_and] <;>
    grind

/-- Packing a frame's bytes gives the frame back. -/
theorem packFrame_frameByte (d : Frame) :
    packFrame (frameByte d 0) (frameByte d 1) (frameByte d 2) (frameByte d 3) (frameByte d 4) = d := by
  apply BitVec.eq_of_getLsbD_eq; intro i hi
  simp only [frameByte, packFrame, BitVec.getLsbD_extractLsb', BitVec.getLsbD_append]
  repeat' split
  all_goals grind

theorem frameBytes_packFrame (b0 b1 b2 b3 b4 : Byte) :
    frameBytes (packFrame b0 b1 b2 b3 b4) = [b0, b1, b2, b3, b4] := by
  obtain ⟨h0, h1, h2, h3, h4⟩ := frameByte_packFrame b0 b1 b2 b3 b4
  simp [frameBytes, dataBytes, h0, h1, h2, h3, h4]

theorem frameByte_toNat (d : Frame) (i : Nat) :
    (frameByte d i).toNat = d.toNat / 2 ^ (32 - 8 * i) % 2 ^ 8 := by
  simp [frameByte, BitVec.extractLsb'_toNat, Nat.shiftRight_eq_div_pow]

theorem append_byte_toNat {n : Nat} (x : BitVec n) (y : Byte) :
    (x ++ y).toNat = x.toNat * 2 ^ 8 + y.toNat := by
  rw [BitVec.toNat_append, ← Nat.shiftLeft_add_eq_or_of_lt y.isLt, Nat.shiftLeft_eq]

theorem packFrame_toNat (b0 b1 b2 b3 b4 : Byte) : (packFrame b0 b1 b2 b3 b4).toNat =
    b0.toNat * 2 ^ 32 + b1.toNat * 2 ^ 24 + b2.toNat * 2 ^ 16 + b3.toNat * 2 ^ 8 + b4.toNat := by
  simp only [packFrame, append_byte_toNat]; ring

theorem be16_toNat (a b : Byte) : (be16 a b).toNat = a.toNat * 2 ^ 8 + b.toNat := append_byte_toNat a b

theorem be24_toNat (a b c : Byte) : (be24 a b c).toNat = a.toNat * 2 ^ 16 + b.toNat * 2 ^ 8 + c.toNat := by
  simp only [be24, append_byte_toNat]; ring

/-- The slices of R62. -/
theorem readyFlag_slice (d : Frame) : readyFlag d = d.extractLsb' 32 1 := by
  apply BitVec.eq_of_getLsbD_eq; intro i hi
  simp only [readyFlag, frameByte, BitVec.getLsbD_extractLsb']
  grind

theorem concentration_slice (d : Frame) : concentration d = d.extractLsb' 8 24 := by
  apply BitVec.eq_of_getLsbD_eq; intro i hi
  simp only [concentration, be24, frameByte, BitVec.getLsbD_extractLsb', BitVec.getLsbD_append]
  grind

theorem calibrationStatus_slice (d : Frame) : calibrationStatus d = d.extractLsb' 24 16 := by
  apply BitVec.eq_of_getLsbD_eq; intro i hi
  simp only [calibrationStatus, be16, frameByte, BitVec.getLsbD_extractLsb', BitVec.getLsbD_append]
  grind

theorem calibrationValue_slice (d : Frame) : calibrationValue d = d.extractLsb' 8 16 := by
  apply BitVec.eq_of_getLsbD_eq; intro i hi
  simp only [calibrationValue, be16, frameByte, BitVec.getLsbD_extractLsb', BitVec.getLsbD_append]
  grind

theorem rawResistance_slice (d : Frame) : rawResistance d = d.extractLsb' 16 24 := by
  apply BitVec.eq_of_getLsbD_eq; intro i hi
  simp only [rawResistance, be24, frameByte, BitVec.getLsbD_extractLsb', BitVec.getLsbD_append]
  grind

/-- The product never overflows 32 bits (R134). -/
theorem resistance_toNat (d : Frame) : (resistance d).toNat = (rawResistance d).toNat * 10 := by
  have h := (rawResistance d).isLt
  have ten : (10 : BitVec 32).toNat = 10 := rfl
  simp only [resistance, BitVec.toNat_mul, BitVec.toNat_setWidth, ten]
  omega

/-- Four data bytes kept and the CRC byte replaced (R105: `{D[39:8], c}`). -/
theorem packFrame_data (d : Frame) (c : Byte) :
    packFrame (frameByte d 0) (frameByte d 1) (frameByte d 2) (frameByte d 3) c = d.extractLsb' 8 32 ++ c := by
  apply BitVec.eq_of_getLsbD_eq; intro i hi
  simp only [packFrame, frameByte, BitVec.getLsbD_extractLsb', BitVec.getLsbD_append]
  grind

/-- The bytes of the frame `{0x0000, v, c}`. -/
theorem value_frame (v : Half) (c : Byte) :
    packFrame 0x00 0x00 (highByte v) (lowByte v) c = (0x0000 : Half) ++ v ++ c := by
  apply BitVec.eq_of_getLsbD_eq; intro i hi
  simp only [packFrame, highByte, lowByte, BitVec.getLsbD_extractLsb', BitVec.getLsbD_append]
  grind

theorem be16_highByte_lowByte (v : Half) : be16 (highByte v) (lowByte v) = v := by
  apply BitVec.eq_of_getLsbD_eq; intro i hi
  simp only [be16, highByte, lowByte, BitVec.getLsbD_extractLsb', BitVec.getLsbD_append]
  grind

theorem frameByte_xor (d e : Frame) (i : Nat) : frameByte (d ^^^ e) i = frameByte d i ^^^ frameByte e i := by
  apply BitVec.eq_of_getLsbD_eq; intro j hj
  simp [frameByte, hj]

theorem frame_eq_of_bytes (d e : Frame) (h : ∀ i, i < 5 → frameByte d i = frameByte e i) : d = e := by
  rw [← packFrame_frameByte d, ← packFrame_frameByte e, h 0 (by omega), h 1 (by omega), h 2 (by omega),
    h 3 (by omega), h 4 (by omega)]

/-- The residue is one byte step past the CRC of the data bytes. -/
theorem residue_eq (d : Frame) : residue d = crcByte (crc8 (dataBytes d)) (frameByte d 4) := crc8_snoc _ _

/-- A frame has residue 0 exactly when its CRC byte is the CRC of its data bytes. -/
theorem residue_eq_zero_iff (d : Frame) : residue d = 0 ↔ crc8 (dataBytes d) = frameByte d 4 := by
  rw [residue_eq, crcByte_eq_zero_iff]

theorem residue_packFrame (b0 b1 b2 b3 b4 : Byte) :
    residue (packFrame b0 b1 b2 b3 b4) = crc8 [b0, b1, b2, b3, b4] := by
  rw [residue, frameBytes_packFrame]

/-- A frame completed with the CRC of its data bytes has residue 0. -/
theorem residue_generated (b0 b1 b2 b3 : Byte) :
    residue (packFrame b0 b1 b2 b3 (crc8 [b0, b1, b2, b3])) = 0 := by
  rw [residue_packFrame]
  exact (crc8_snoc [b0, b1, b2, b3] _).trans ((crcByte_eq_zero_iff _ _).2 rfl)

end Sys2Proof.Machine
end

