-- ==== Sys2Proof/Laws/Flags.lean ====
section
/-! SUPPORT. The result codes and flags as the rules write them, and errors confined to one byte. -/

namespace Sys2Proof.Machine

theorem crcOkFlag_eq (r : Byte) : crcOkFlag r = if r = 0 then 1 else 0 := rfl

theorem crcOkFlag_eq_one_iff (r : Byte) : crcOkFlag r = 1 ↔ r = 0 := by
  by_cases h : r = 0 <;> simp only [crcOkFlag, h, if_true, if_false]
  all_goals decide

/-- ERR from the residue alone is OK or CRC_MISMATCH (R131). -/
theorem residueErr_eq (r : Byte) : residueErr r = if r = 0 then 0 else 2 := by
  by_cases h : r = 0
  · subst h; rfl
  · have hb : (r != 0) = true := by simpa using h
    simp only [residueErr, hb, h, if_false]; rfl

/-- ERR of a PPM frame: CRC_MISMATCH over NOT_READY over OK (R133). -/
theorem ppmErr_eq (r : Byte) (n : BitVec 1) :
    ppmErr r n = if r ≠ 0 then 2 else if n = 1 then 1 else 0 := by
  by_cases h : r = 0
  · subst h
    by_cases hn : n = 1
    · subst hn; rfl
    · have hb : (n == 1) = false := by simpa using hn
      simp only [ppmErr, hb, hn, if_false]; rfl
  · have hb : (r != 0) = true := by simpa using h
    simp only [ppmErr, hb, ne_eq, h, not_false_eq_true, if_true]; rfl

theorem illegalErr_eq : (selectErr true false false).code = 3 := rfl

/-- Changing one byte of a frame changes its residue (R106's last corner case). -/
theorem residue_ne_of_one_byte (d e : Frame) (i : Nat) (hi : i < 5)
    (h : ∀ j, j < 5 → j ≠ i → frameByte e j = frameByte d j) (hne : frameByte e i ≠ frameByte d i) :
    residue e ≠ residue d := by
  intro he
  refine hne ?_
  simp only [residue, frameBytes, dataBytes, List.cons_append, List.nil_append, crc8, crc8From_cons,
    crc8From_nil] at he
  have step {c c' b : Byte} (h' : crcByte c b = crcByte c' b) : c = c' := crcByte_left_injective b h'
  interval_cases i
  · rw [h 1 (by omega) (by omega), h 2 (by omega) (by omega), h 3 (by omega) (by omega),
      h 4 (by omega) (by omega)] at he
    exact crcByte_right_injective _ (step (step (step (step he))))
  · rw [h 0 (by omega) (by omega), h 2 (by omega) (by omega), h 3 (by omega) (by omega),
      h 4 (by omega) (by omega)] at he
    exact crcByte_right_injective _ (step (step (step he)))
  · rw [h 0 (by omega) (by omega), h 1 (by omega) (by omega), h 3 (by omega) (by omega),
      h 4 (by omega) (by omega)] at he
    exact crcByte_right_injective _ (step (step he))
  · rw [h 0 (by omega) (by omega), h 1 (by omega) (by omega), h 2 (by omega) (by omega),
      h 4 (by omega) (by omega)] at he
    exact crcByte_right_injective _ (step he)
  · rw [h 0 (by omega) (by omega), h 1 (by omega) (by omega), h 2 (by omega) (by omega),
      h 3 (by omega) (by omega)] at he
    exact crcByte_right_injective _ he

end Sys2Proof.Machine
end

