-- ==== Sys2Proof/Laws/PerInstr.lean ====
section
/-! SUPPORT. Statements about every operation as syntax, one lemma per constructor. -/

/-- EncodesInRow: the operation's command word is selected by its own row of the opcode map (R63), is well formed as a
number on the CMD port (R60), and its fn is the row's (R60). -/
def Sys2Proof.Laws.EncodesInRow.Statement (i : Sys2Proof.Instr) : Prop :=
  (Sys2Proof.rowOf i).selects (Sys2Proof.encode i) = true ∧ i.wellFormed = true ∧
    Sys2Proof.fnOf (Sys2Proof.encode i) = Sys2Proof.fnOf (Sys2Proof.rowOf i).pattern

namespace Sys2Proof.Laws.EncodesInRow

theorem crcgen : Statement .crcgen := ⟨by decide, rfl, by decide⟩
theorem crcchk : Statement .crcchk := ⟨by decide, rfl, by decide⟩
theorem decPpm : Statement .decPpm := ⟨by decide, rfl, by decide⟩
theorem decCal : Statement .decCal := ⟨by decide, rfl, by decide⟩
theorem decVer : Statement .decVer := ⟨by decide, rfl, by decide⟩
theorem decRes : Statement .decRes := ⟨by decide, rfl, by decide⟩
theorem decGen (sel : Byte) : Statement (.decGen sel) := by
  revert sel; unfold Statement; decide
theorem bldCal : Statement .bldCal := ⟨by decide, rfl, by decide⟩

end Sys2Proof.Laws.EncodesInRow
end

