-- ==== Sys2Proof/Laws/State.lean ====
section
/-! SUPPORT. One lemma per field per update of State. -/

namespace Sys2Proof.Machine

@[simp] theorem present_inp (s : State) (p : Inputs) : (s.present p).inp = p := rfl
@[simp] theorem present_out (s : State) (p : Inputs) : (s.present p).out = s.out := rfl
@[simp] theorem present_outStatus (s : State) (p : Inputs) : (s.present p).outStatus = s.outStatus := rfl
@[simp] theorem present_schedule (s : State) (p : Inputs) : (s.present p).schedule = s.schedule := rfl
@[simp] theorem present_freeDraws (s : State) (p : Inputs) : (s.present p).freeDraws = s.freeDraws := rfl

@[simp] theorem drive_inp (s : State) (o : Out) : (s.drive o).inp = s.inp := rfl
@[simp] theorem drive_out (s : State) (o : Out) : (s.drive o).out = o := rfl
@[simp] theorem drive_outStatus (s : State) (o : Out) : (s.drive o).outStatus = .valid := rfl
@[simp] theorem drive_schedule (s : State) (o : Out) : (s.drive o).schedule = s.schedule := rfl
@[simp] theorem drive_freeDraws (s : State) (o : Out) : (s.drive o).freeDraws = s.freeDraws := rfl

@[simp] theorem driveUnspecified_inp (s : State) : s.driveUnspecified.inp = s.inp := rfl
@[simp] theorem driveUnspecified_out (s : State) : s.driveUnspecified.out = Config.freeOut s.freeDraws := rfl
@[simp] theorem driveUnspecified_outStatus (s : State) : s.driveUnspecified.outStatus = .unspecified := rfl
@[simp] theorem driveUnspecified_schedule (s : State) : s.driveUnspecified.schedule = s.schedule := rfl
@[simp] theorem driveUnspecified_freeDraws (s : State) : s.driveUnspecified.freeDraws = s.freeDraws + 1 := rfl

@[simp] theorem withSchedule_inp (s : State) (ps : List Inputs) : (s.withSchedule ps).inp = s.inp := rfl
@[simp] theorem withSchedule_out (s : State) (ps : List Inputs) : (s.withSchedule ps).out = s.out := rfl
@[simp] theorem withSchedule_outStatus (s : State) (ps : List Inputs) :
    (s.withSchedule ps).outStatus = s.outStatus := rfl
@[simp] theorem withSchedule_schedule (s : State) (ps : List Inputs) : (s.withSchedule ps).schedule = ps := rfl
@[simp] theorem withSchedule_freeDraws (s : State) (ps : List Inputs) :
    (s.withSchedule ps).freeDraws = s.freeDraws := rfl

@[simp] theorem withFetchWord_cmd (s : State) (nbits w : Nat) :
    (s.withFetchWord nbits w).inp.cmd = BitVec.ofNat 11 (w % 2 ^ nbits) := rfl
@[simp] theorem withFetchWord_d (s : State) (nbits w : Nat) : (s.withFetchWord nbits w).inp.d = s.inp.d := rfl
@[simp] theorem withFetchWord_value (s : State) (nbits w : Nat) :
    (s.withFetchWord nbits w).inp.value = s.inp.value := rfl
@[simp] theorem withFetchWord_change (s : State) (nbits w : Nat) :
    (s.withFetchWord nbits w).inp.change = none := rfl
@[simp] theorem withFetchWord_out (s : State) (nbits w : Nat) : (s.withFetchWord nbits w).out = s.out := rfl
@[simp] theorem withFetchWord_outStatus (s : State) (nbits w : Nat) :
    (s.withFetchWord nbits w).outStatus = s.outStatus := rfl
@[simp] theorem withFetchWord_schedule (s : State) (nbits w : Nat) : (s.withFetchWord nbits w).schedule = [] := rfl
@[simp] theorem withFetchWord_freeDraws (s : State) (nbits w : Nat) :
    (s.withFetchWord nbits w).freeDraws = s.freeDraws := rfl

end Sys2Proof.Machine
end

