-- ==== Sys2Proof/Laws/Step.lean ====
section
/-! SUPPORT. What each shared operation, each meaning and a step can do, said once. -/

namespace Sys2Proof.Machine

/-- The host's presentation is all that advancing changes. -/
theorem advance_cases (s : State) :
    (s.schedule = [] ∧ s.advance = s) ∨
    (∃ p ps, s.schedule = p :: ps ∧ s.advance = { s with inp := p, schedule := ps }) := by
  unfold State.advance
  cases h : s.schedule with
  | nil => exact .inl ⟨rfl, rfl⟩
  | cons p ps => exact .inr ⟨p, ps, rfl, rfl⟩

@[simp] theorem advance_out (s : State) : s.advance.out = s.out := by
  obtain ⟨_, h⟩ | ⟨_, _, _, h⟩ := advance_cases s <;> rw [h]

@[simp] theorem advance_outStatus (s : State) : s.advance.outStatus = s.outStatus := by
  obtain ⟨_, h⟩ | ⟨_, _, _, h⟩ := advance_cases s <;> rw [h]

@[simp] theorem advance_freeDraws (s : State) : s.advance.freeDraws = s.freeDraws := by
  obtain ⟨_, h⟩ | ⟨_, _, _, h⟩ := advance_cases s <;> rw [h]

/-- Inputs that never change are held; others are held when they change after LATENCY. -/
theorem held_of_change_none {p : Inputs} (h : p.change = none) : p.held = true := by
  simp [Inputs.held, h]

@[simp] theorem steady_held (c : Cmd) (d : Frame) (v : Half) : (Inputs.steady c d v).held = true := rfl
@[simp] theorem steady_cmd (c : Cmd) (d : Frame) (v : Half) : (Inputs.steady c d v).cmd = c := rfl
@[simp] theorem steady_d (c : Cmd) (d : Frame) (v : Half) : (Inputs.steady c d v).d = d := rfl
@[simp] theorem steady_value (c : Cmd) (d : Frame) (v : Half) : (Inputs.steady c d v).value = v := rfl

/-- A well-formed transaction loses nothing on the ports. -/
theorem rawInputs_toNat {t : RawTransaction} (h : t.wellFormed = true) :
    (rawInputs t).cmd.toNat = t.cmd ∧ (rawInputs t).d.toNat = t.d ∧ (rawInputs t).value.toNat = t.value := by
  simp only [RawTransaction.wellFormed, Bool.and_eq_true, decide_eq_true_eq] at h
  obtain ⟨⟨hc, hd⟩, hv⟩ := h
  simp only [rawInputs, steady_cmd, steady_d, steady_value, BitVec.toNat_ofNat]
  exact ⟨Nat.mod_eq_of_lt hc, Nat.mod_eq_of_lt hd, Nat.mod_eq_of_lt hv⟩

/-- The bundle an operation drives, from the inputs alone. -/
def bundleOf (i : Instr) (p : Inputs) : Out :=
  match i with
  | .crcgen => generateOut (frameByte p.d 0) (frameByte p.d 1) (frameByte p.d 2) (frameByte p.d 3)
  | .crcchk => checkOut p.d
  | .decPpm =>
    { checkOut p.d with
      stat := deviceStatus p.d
      nrdy := readyFlag p.d
      ppm := concentration p.d
      err := ppmErr (residue p.d) (readyFlag p.d) }
  | .decCal => { checkOut p.d with calst := calibrationStatus p.d, calval := calibrationValue p.d }
  | .decVer => { checkOut p.d with ver := versionByte p.d }
  | .decRes => { checkOut p.d with res := resistance p.d }
  | .decGen _ => { checkOut p.d with fout := p.d }
  | .bldCal => generateOut 0x00 0x00 (highByte p.value) (lowByte p.value)

/-- Every operation completes, drives its bundle, and changes nothing else. -/
theorem exec_eq (i : Instr) (s : State) : exec i s = .next (s.drive (bundleOf i s.inp)) := by
  cases i <;> rfl

/-- The bundle of a command: the operation's, or ILLEGAL. -/
def commandOut (p : Inputs) : Out :=
  match decode p.cmd with
  | .ok i => bundleOf i p
  | .error _ => illegalOut

theorem transact_eq (s : State) : transact s = .next (s.drive (commandOut s.inp)) := by
  unfold transact commandOut
  cases decode s.inp.cmd with
  | ok i => exact exec_eq i s
  | error r => rfl

/-- Everything a step can do. -/
theorem step_cases (s : State) :
    (s.advance.inp.held = true ∧ step s = .next (s.advance.drive (commandOut s.advance.inp))) ∨
    (s.advance.inp.held = false ∧ step s = .next s.advance.driveUnspecified) := by
  unfold step
  cases h : s.advance.inp.held with
  | true => exact .inl ⟨rfl, by simpa using transact_eq s.advance⟩
  | false => exact .inr ⟨rfl, by simp⟩

theorem step_of_held {s : State} (h : s.advance.inp.held = true) :
    step s = .next (s.advance.drive (commandOut s.advance.inp)) := by
  obtain ⟨_, e⟩ | ⟨h', _⟩ := step_cases s
  · exact e
  · rw [h] at h'; cases h'

/-- A transaction the host presents and holds: its command's bundle, and the presentation on the ports. -/
theorem transaction_of_held (s : State) {p : Inputs} (h : p.held = true) :
    transaction s p = .next { s with inp := p, out := commandOut p, outStatus := .valid } :=
  step_of_held (s := { s with schedule := p :: s.schedule }) h

theorem transaction_of_not_held (s : State) {p : Inputs} (h : p.held = false) :
    transaction s p = .next { s with inp := p, out := Config.freeOut s.freeDraws,
                                     outStatus := .unspecified, freeDraws := s.freeDraws + 1 } := by
  obtain ⟨h', _⟩ | ⟨_, e⟩ := step_cases { s with schedule := p :: s.schedule }
  · have : p.held = true := h'
    rw [h] at this; cases this
  · exact e

/-- CFB is the bundle of the command, with D and VALUE as presented. -/
theorem cfb_eq (c : Cmd) (d : Frame) (v : Half) : cfb c d v = commandOut (Inputs.steady c d v) := by
  unfold cfb
  rw [step_of_held (s := State.reset.present (Inputs.steady c d v)) rfl]
  rfl

/-- A bundle reads no input but CMD, D and VALUE. -/
theorem commandOut_eq_cfb (p : Inputs) : commandOut p = cfb p.cmd p.d p.value := by
  rw [cfb_eq]
  unfold commandOut
  simp only [steady_cmd]
  cases decode p.cmd with
  | ok i => cases i <;> rfl
  | error r => rfl

end Sys2Proof.Machine
end

