-- ==== Sys2Proof/Tests/Slice0.lean ====
section
/-! SUPPORT. Tests of one transaction each, their expected values taken from spec/95_test_vectors.md (the vector is
named) or from the encoding column of spec/30_encoding.md R63; the ill-formed terms the checks refuse; and, for every
obligation with hypotheses, states and operands that meet them. -/

open Sys2Proof Sys2Proof.Machine

/-! ### Well-formedness -/

theorem test_raw_wellFormed : (RawTransaction.mk 0x7FF 0xFFFFFFFFFF 0xFFFF).wellFormed = true := by decide
theorem test_raw_cmd_too_wide : (RawTransaction.mk 0x800 0 0).wellFormed = false := by decide
theorem test_raw_d_too_wide : (RawTransaction.mk 0 0x10000000000 0).wellFormed = false := by decide
theorem test_raw_value_too_wide : (RawTransaction.mk 0 0 0x10000).wellFormed = false := by decide
theorem test_line_wellFormed : (Line.rawCmd 0x212 0x0027100023 0).wellFormed = true := by decide
theorem test_line_cmd_too_wide : (Line.rawCmd 0x800 0 0).wellFormed = false := by decide
theorem test_line_cmd_not_reserved : (Line.rawCmd 0x220 0 0).wellFormed = false := by decide

/-! ### Decoding words written bit by bit -/

theorem test_decode_crcgen : decode 0b00000000000 = .ok .crcgen := rfl
theorem test_decode_crcchk : decode 0b00100000000 = .ok .crcchk := rfl
theorem test_decode_decPpm : decode 0b01000000000 = .ok .decPpm := rfl
theorem test_decode_decCal : decode 0b01000000001 = .ok .decCal := rfl
theorem test_decode_decVer : decode 0b01000010001 = .ok .decVer := rfl
theorem test_decode_decRes : decode 0b01000100000 = .ok .decRes := rfl
theorem test_decode_decGen : decode 0b01111111111 = .ok (.decGen 0xFF) := rfl
theorem test_decode_bldCal : decode 0b10000000001 = .ok .bldCal := rfl

/-- V30's reserved commands, each with the clause of R65 it falls under. -/
theorem test_decode_reserved :
    decode 0x500 = .error .functionClass ∧ decode 0x7FF = .error .functionClass ∧
    decode 0x001 = .error .crcSelector ∧ decode 0x1FF = .error .crcSelector ∧
    decode 0x202 = .error .viewSelector ∧ decode 0x221 = .error .viewSelector ∧
    decode 0x400 = .error .buildSelector ∧ decode 0x411 = .error .buildSelector :=
  ⟨rfl, rfl, rfl, rfl, rfl, rfl, rfl, rfl⟩

/-- A placed word is the first thing that runs after reset, for the first and the last of the opcode map's rows. -/
theorem test_fetch_word_runs :
    step (State.reset.withFetchWord 16 0x000) = exec .crcgen (State.reset.withFetchWord 16 0x000) ∧
    step (State.reset.withFetchWord 16 0x401) = exec .bldCal (State.reset.withFetchWord 16 0x401) := ⟨rfl, rfl⟩

theorem test_table_word : decodeTableWord 16 0x342 = some (.decGen 0x42) := by decide
theorem test_table_word_reserved : decodeTableWord 16 0x500 = none := by decide
theorem test_table_word_too_wide : decodeTableWord 16 0x1000 = none := by decide

/-! ### The CRC -/

/-- V10. -/
theorem test_bit_step :
    [0x00, 0x01, 0x40, 0x7F, 0x80, 0x81, 0xC0, 0xFF].map crcBit =
      [0x00, 0x02, 0x80, 0xFE, 0x31, 0x33, 0xB1, 0xCF] := by decide +kernel

/-- V11. -/
theorem test_byte_step :
    crcByte 0x00 0x80 = 0x7A ∧ crcByte 0x80 0x00 = 0x7A ∧ crcByte 0xFF 0x12 = 0x8D ∧ crcByte 0xD7 0x00 = 0x93 := by
  decide +kernel

/-- V12. -/
theorem test_checksum :
    crc8 [0xBE, 0xEF] = 0x92 ∧ crc8 [0x00, 0x01, 0x86, 0xA0] = 0x14 ∧
    crc8 [0x31, 0x32, 0x33, 0x34, 0x35, 0x36, 0x37, 0x38, 0x39] = 0xF7 := by
  decide +kernel

/-- V13, rows 0x0_, 0x8_ and 0xF_ of the byte table. -/
theorem test_byte_table :
    ((List.range 16).map fun x => crcByte 0x00 (BitVec.ofNat 8 x)) =
      [0x00, 0x31, 0x62, 0x53, 0xC4, 0xF5, 0xA6, 0x97, 0xB9, 0x88, 0xDB, 0xEA, 0x7D, 0x4C, 0x1F, 0x2E] ∧
    ((List.range 16).map fun x => crcByte 0x00 (BitVec.ofNat 8 (0x80 + x))) =
      [0x7A, 0x4B, 0x18, 0x29, 0xBE, 0x8F, 0xDC, 0xED, 0xC3, 0xF2, 0xA1, 0x90, 0x07, 0x36, 0x65, 0x54] ∧
    ((List.range 16).map fun x => crcByte 0x00 (BitVec.ofNat 8 (0xF0 + x))) =
      [0x82, 0xB3, 0xE0, 0xD1, 0x46, 0x77, 0x24, 0x15, 0x3B, 0x0A, 0x59, 0x68, 0xFF, 0xCE, 0x9D, 0xAC] := by
  decide +kernel

/-! ### One transaction per operation; every output not listed is 0 -/

/-- V14. -/
theorem test_crcgen : cfb 0x000 0xDEADBEEF00 0 =
    { Out.zero with err := 0, crc := 0x69, crcok := 1, fout := 0xDEADBEEF69 } := by decide +kernel
/-- V14: B4 is ignored and replaced. -/
theorem test_crcgen_ignores_b4 : cfb 0x000 0x00000000FF 0x1234 =
    { Out.zero with err := 0, crc := 0xD7, crcok := 1, fout := 0x00000000D7 } := by decide +kernel
/-- V15. -/
theorem test_crcchk_valid : cfb 0x100 0x8000000026 0 = { Out.zero with err := 0, crc := 0, crcok := 1 } := by
  decide +kernel
/-- V15: B1 bit 0 flipped. -/
theorem test_crcchk_corrupt : cfb 0x100 0x000086A014 0 = { Out.zero with err := 2, crc := 0x9B, crcok := 0 } := by
  decide +kernel
/-- V20: only B1 reaches VER. -/
theorem test_decVer : cfb 0x211 0xAAFF55AAB1 0 =
    { Out.zero with err := 0, crc := 0, crcok := 1, ver := 0xFF } := by decide +kernel
/-- V20: VER is decoded although the CRC is wrong. -/
theorem test_decVer_badCrc : cfb 0x211 0x0007000035 0 =
    { Out.zero with err := 2, crc := 0x31, crcok := 0, ver := 0x07 } := by decide +kernel
/-- V21: CRC_MISMATCH over NOT_READY. -/
theorem test_decPpm_priority : cfb 0x200 0x010186A014 0 =
    { Out.zero with err := 2, crc := 0xD3, crcok := 0, nrdy := 1, stat := 0x01, ppm := 0x0186A0 } := by decide +kernel
/-- V21: bits 7 to 1 of B0 do not make it not-ready. -/
theorem test_decPpm_status_bits : cfb 0x200 0xFE0003E8CE 0 =
    { Out.zero with err := 0, crc := 0, crcok := 1, nrdy := 0, stat := 0xFE, ppm := 0x0003E8 } := by decide +kernel
/-- V22: the largest raw value, in 28 bits. -/
theorem test_decRes_max : cfb 0x220 0xFFFFFF00CA 0 =
    { Out.zero with err := 0, crc := 0, crcok := 1, res := 0x09FFFFF6 } := by decide +kernel
/-- V22: B3 is not decoded. -/
theorem test_decRes_b3 : cfb 0x220 0x000001AB35 0 =
    { Out.zero with err := 0, crc := 0, crcok := 1, res := 0x0000000A } := by decide +kernel
/-- V24. -/
theorem test_decCal : cfb 0x201 0x0001123427 0 =
    { Out.zero with err := 0, crc := 0, crcok := 1, calst := 0x0001, calval := 0x1234 } := by decide +kernel
/-- V24: fields driven on a bad CRC. -/
theorem test_decCal_badCrc : cfb 0x201 0x0001123426 0 =
    { Out.zero with err := 2, crc := 0x31, crcok := 0, calst := 0x0001, calval := 0x1234 } := by decide +kernel
/-- V26: the CRC byte as received. -/
theorem test_decGen : cfb 0x342 0x123456789A 0 =
    { Out.zero with err := 2, crc := 0x23, crcok := 0, fout := 0x123456789A } := by decide +kernel
/-- V26: no not-ready check in the generic view. -/
theorem test_decGen_not_ready_bit : cfb 0x300 0x010186A08F 0 =
    { Out.zero with err := 0, crc := 0, crcok := 1, fout := 0x010186A08F } := by decide +kernel
/-- V28: D is ignored. -/
theorem test_bldCal : cfb 0x401 0xFFFFFFFFFF 0x1234 =
    { Out.zero with err := 0, crc := 0x61, crcok := 1, fout := 0x0000123461 } := by decide +kernel
/-- V28: VALUE's high byte is frame byte 2. -/
theorem test_bldCal_high : cfb 0x401 0 0x8000 =
    { Out.zero with err := 0, crc := 0xF4, crcok := 1, fout := 0x00008000F4 } := by decide +kernel
/-- V30. -/
theorem test_reserved : cfb 0x411 0x000186A014 0x1234 = { Out.zero with err := 3, ill := 1 } := by decide +kernel

/-! ### Host side -/

/-- V6 and V7: after the second frame of V6 the first consume returns CRC-mismatch. -/
def hostBefore : Driver.HostState :=
  Driver.reset 5 { buffer := 0x0102030405, err := .shortRead, cache := 7, lastRead := 9, status := .ok, preheat := 1, address := 0x12 }

theorem test_driver_not_ready :
    (Driver.consumeLastError (Driver.readConcentration 8 (.frame 0x01 0x01 0x86 0xA0 0x14) hostBefore).1).2 =
      .crcMismatch := by decide +kernel
/-- V4: 100000, error OK, cache updated. -/
theorem test_driver_concentration :
    (Driver.readConcentration 8 (.frame 0x00 0x01 0x86 0xA0 0x14) hostBefore).2 = 100000 ∧
    (Driver.readConcentration 8 (.frame 0x00 0x01 0x86 0xA0 0x14) hostBefore).1.cache = 100000 := by decide +kernel

/-! ### States and operands that meet the obligations' hypotheses -/

/-- A state with a transaction on the ports and another behind it, its outputs left by earlier ones. -/
def stateOn (c : Cmd) (d : Frame) (v : Half) : State :=
  { inp := Inputs.steady c d v, out := { Out.zero with crc := 0x55 }, outStatus := .valid,
    schedule := [], freeDraws := 3 }

theorem witness_CrcgenResult_sameData :
    (0x00001234FF : Frame).extractLsb' 8 32 = (stateOn 0 0x0000123400 0).inp.d.extractLsb' 8 32 := by decide
theorem witness_CrcgenResult_example : (stateOn 0 0x0000123400 0).inp.d = 0x0000123400 := rfl
/-- The first byte and the last byte of the range, each changed alone in a valid frame. -/
theorem witness_CrcchkResult_oneByte :
    residue 0x000186A014 = 0 ∧
    (∀ j, j < 5 → j ≠ 0 → frameByte 0x010186A014 j = frameByte 0x000186A014 j) ∧
    frameByte 0x010186A014 0 ≠ frameByte 0x000186A014 0 ∧
    (∀ j, j < 5 → j ≠ 4 → frameByte 0x000186A015 j = frameByte 0x000186A014 j) ∧
    frameByte 0x000186A015 4 ≠ frameByte 0x000186A014 4 := by decide +kernel
theorem witness_DecVerResult_examples :
    (stateOn 0 0xAAFF55AAB1 0).inp.d = 0xAAFF55AAB1 ∧ (stateOn 0 0x0007000034 0).inp.d = 0x0007000034 := ⟨rfl, rfl⟩
theorem witness_DecPpmResult_examples :
    (stateOn 0 0x00FFFFFFB1 0).inp.d = 0x00FFFFFFB1 ∧ (stateOn 0 0x00000000D7 0).inp.d = 0x00000000D7 ∧
    (stateOn 0 0x000186A014 0).inp.d = 0x000186A014 := ⟨rfl, rfl, rfl⟩
theorem witness_DecResResult_examples :
    (stateOn 0 0xFFFFFF00CA 0).inp.d = 0xFFFFFF00CA ∧ (stateOn 0 0x00000000D7 0).inp.d = 0x00000000D7 ∧
    (stateOn 0 0x0027100023 0).inp.d = 0x0027100023 := ⟨rfl, rfl, rfl⟩
theorem witness_DecCalResult_example : (stateOn 0 0x0001123427 0).inp.d = 0x0001123427 := rfl
theorem witness_DecGenResult_example : (stateOn 0 0x123456789A 0).inp.d = 0x123456789A := rfl
theorem witness_DecGenResult_good :
    ∃ t, exec (.decGen 0x42) (stateOn 0 0x12345678E0 0) = .next t ∧ t.out.err = 0 :=
  ⟨_, rfl, by decide +kernel⟩
theorem witness_BldCalResult_examples :
    (stateOn 0 0 0x0000).inp.value = 0x0000 ∧ (stateOn 0 0 0xFFFF).inp.value = 0xFFFF ∧
    (stateOn 0 0 0x1234).inp.value = 0x1234 := ⟨rfl, rfl, rfl⟩
/-- A reserved command and a legal one, both held. -/
theorem witness_ReservedCommandIllegal :
    (Inputs.steady 0x411 0x000186A014 0x1234).held = true ∧ (Inputs.steady 0x401 0 0x1234).held = true ∧
    selectsOperation (Inputs.steady 0x411 0x000186A014 0x1234).cmd = false := by decide
theorem witness_OpcodeMap_row :
    rowOf (.decGen 0) ∈ opcodeTable ∧ (rowOf (.decGen 0)).selects 0x300 = true ∧
    (rowOf (.decGen 0)).selects 0x3FF = true ∧ (rowOf (.decGen 0)).selects 0x400 = false := by decide
theorem witness_DecodeEncodeAgree : decode 0x3FF = .ok (.decGen 0xFF) := rfl
theorem witness_IgnoredOperands :
    Instr.decGen 0xFF ≠ .bldCal ∧
    (0x00001234FF : Frame).extractLsb' 8 32 = (stateOn 0 0x0000123400 0).inp.d.extractLsb' 8 32 := by decide
/-- The first and the last byte number. -/
theorem witness_FramePacking : (0 ≤ 4 ∧ frameByte 0x123456789A 0 = 0x12) ∧ (4 ≤ 4 ∧ frameByte 0x123456789A 4 = 0x9A) := by
  decide
theorem witness_ByteStep : (0x80 : Byte) ^^^ 0x00 = 0x00 ^^^ 0x80 := by decide
/-- The boundary values of the two halves, and of their images. -/
theorem witness_BitStepBijective :
    ((0x7F : Byte).toNat < 128 ∧ crcBit 0x7F = 0xFE) ∧ (128 ≤ (0x80 : Byte).toNat ∧ crcBit 0x80 = 0x31) ∧
    (0xFE : Byte).toNat % 2 = 0 ∧ (0x31 : Byte).toNat % 2 = 1 := by decide
theorem witness_CrcLinear :
    ([0xDE, 0xAD] : List Byte).length = ([0x00, 0x01] : List Byte).length ∧ residue 0xDEADBEEF69 = 0 := by
  decide +kernel
theorem witness_TableRealisation : ∀ x, (fun b : Byte => crcByte 0x00 b) x = crcByte 0x00 x := fun _ => rfl
/-- Held inputs exist with and without a change: one after LATENCY is outside the window. -/
theorem witness_held :
    (Inputs.steady 0x200 0x000186A014 0).held = true ∧
    ({ Inputs.steady 0x200 0x000186A014 0 with change := some (Config.latency + 1) } : Inputs).held = true := by
  simp [Inputs.held, Inputs.steady]
theorem witness_OutputsFromInputsAlone : (Inputs.steady 0x200 0x000186A014 0).held = true := rfl
theorem witness_SequenceGivesEachItsOwn :
    (∀ p ∈ [Inputs.steady 0x401 0 0x1234, Inputs.steady 0x100 0x0000123461 0], p.held = true) ∧
    List.Perm [Inputs.steady 0x401 0 0x1234, Inputs.steady 0x100 0x0000123461 0]
      [Inputs.steady 0x100 0x0000123461 0, Inputs.steady 0x401 0 0x1234] := by decide
theorem witness_ResultCodePriority :
    decode (Inputs.steady 0x500 0 0).cmd = .error .functionClass ∧ decode (Inputs.steady 0x000 0 0).cmd = .ok .crcgen ∧
    decode (Inputs.steady 0x401 0 0).cmd = .ok .bldCal ∧ decode (Inputs.steady 0x100 0 0).cmd = .ok .crcchk ∧
    Instr.crcchk ∉ [Instr.crcgen, .bldCal, .decPpm] ∧ decode (Inputs.steady 0x200 0 0).cmd = .ok .decPpm :=
  ⟨rfl, rfl, rfl, rfl, by decide, rfl⟩
theorem witness_UndefinedOutputsZero :
    Instr.crcgen ≠ .decPpm ∧ Instr.crcgen ≠ .decCal ∧ Instr.crcgen ≠ .decVer ∧ Instr.crcgen ≠ .decRes ∧
    Instr.decRes ∈ [Instr.crcchk, .decPpm, .decCal, .decVer, .decRes] := by decide
theorem witness_ParseStepCommon : Instr.decPpm ∉ [Instr.crcgen, .crcchk, .bldCal] := by decide
theorem witness_ResidueAloneDecidesErr : Instr.decGen 0x00 ∉ [Instr.crcgen, .crcchk, .bldCal, .decPpm] := by decide
theorem witness_BestEffortDecode :
    Instr.decVer ∉ [Instr.crcgen, .crcchk, .bldCal] ∧ Instr.decPpm ∉ [Instr.crcgen, .crcchk, .bldCal] ∧
    Instr.decRes ∉ [Instr.crcgen, .crcchk, .bldCal] ∧ Instr.decCal ∉ [Instr.crcgen, .crcchk, .bldCal] ∧
    Instr.decGen 0x42 ∉ [Instr.crcgen, .crcchk, .bldCal] := by decide
theorem witness_BytesWithoutMeaning :
    (0xFE0003E8CE : Frame).extractLsb' 0 33 = (stateOn 0 0x000003E8CE 0).inp.d.extractLsb' 0 33 ∧
    (0x000001AB35 : Frame).extractLsb' 16 24 = (stateOn 0 0x0000010000 0).inp.d.extractLsb' 16 24 ∧
    (0xAA07AAAAAA : Frame).extractLsb' 24 8 = (stateOn 0 0x0007000034 0).inp.d.extractLsb' 24 8 ∧
    (∀ j, j < 5 → j ≠ 3 → frameByte 0x000001AB35 j = frameByte 0x0000010035 j) ∧
    frameByte 0x000001AB35 3 ≠ frameByte 0x0000010035 3 := by decide
theorem witness_CrcokMeaning :
    Instr.decVer ∉ [Instr.crcgen, .bldCal] ∧ Instr.bldCal ∈ [Instr.crcgen, .bldCal] := by decide
theorem witness_TransactionIdempotent : (Inputs.steady 0x220 0x0027100023 0).held = true := rfl
/-- Both cases of the host's next presentation. -/
theorem witness_StepRunsDecoded :
    (stateOn 0x220 0x0027100023 0).advance.inp.held = true ∧
    decode (stateOn 0x220 0x0027100023 0).advance.inp.cmd = .ok .decRes ∧
    (stateOn 0x220 0x0027100023 0).schedule = [] ∧
    ((stateOn 0 0 0).withSchedule [Inputs.steady 0x211 0 0]).schedule = [Inputs.steady 0x211 0 0] ∧
    decode ((stateOn 0 0 0).withSchedule [Inputs.steady 0x211 0 0]).advance.inp.cmd = .ok .decVer :=
  ⟨rfl, rfl, rfl, rfl, rfl⟩
/-- The first and the last word of DEC.GEN's row. -/
theorem witness_FetchWordRuns :
    decodeTableWord 16 0x300 = some (.decGen 0x00) ∧ decodeTableWord 11 0x3FF = some (.decGen 0xFF) := by decide
/-- Both ends of the window, whatever LATENCY is: a change at the start and one exactly at LATENCY are inside it, and one
just after LATENCY is not. -/
theorem witness_ChangedInputsUnspecified :
    ({ Inputs.steady 0x200 0x000186A014 0 with change := some 0 } : Inputs).held = false ∧
    ({ Inputs.steady 0x200 0x000186A014 0 with change := some Config.latency } : Inputs).held = false ∧
    ({ Inputs.steady 0x200 0x000186A014 0 with change := some (Config.latency + 1) } : Inputs).held = true := by
  simp [Inputs.held]
theorem witness_NothingObservedBeforeFirst : (Inputs.steady 0x000 0x0000123400 0).held = true := rfl
/-- A state whose outputs an earlier transaction gave, and a step from it. -/
theorem witness_StepKeepsInv :
    ({ stateOn 0x200 0x000186A014 0 with out := { Out.zero with crcok := 1, stat := 0x01, nrdy := 1, err := 1 } } : State).Inv ∧
    ∃ t, step { stateOn 0x200 0x000186A014 0 with out := { Out.zero with crcok := 1, stat := 0x01, nrdy := 1, err := 1 } } = .next t :=
  ⟨fun _ => by constructor <;> simp [Out.zero], ⟨_, rfl⟩⟩
theorem witness_LineRunsItsOperation :
    (Line.decGen none 0x123456789A).operation = some (.decGen 0x00) ∧
    (Line.rawCmd 0x212 0x0027100023 0).wellFormed = true := by decide
theorem witness_DriverUsesFrames :
    (crc8 [0x00, 0x01, 0x86, 0xA0] = 0x14 ∧ (0x00 : Byte).toNat % 2 = 0) ∧
    (crc8 [0x01, 0x01, 0x86, 0xA0] = 0x8F ∧ (0x01 : Byte).toNat % 2 = 1) ∧
    crc8 [0x00, 0x01, 0x86, 0xA0] ≠ 0x15 := by decide +kernel
theorem witness_DriverTransportFailure :
    (∃ code buffer, Driver.ReadResult.busError 2 0 = .busError code buffer ∧
      Driver.ErrorState.busTransmissionError 2 = .busTransmissionError code) ∧
    (∃ buffer, Driver.ReadResult.short 0 = .short buffer ∧ Driver.ErrorState.shortRead = .shortRead) :=
  ⟨⟨2, 0, rfl, rfl⟩, ⟨0, rfl, rfl⟩⟩
end

section
/-! PROOFS. The output ports an operation leaves at the default of R13: one lemma per row of the "written by" column of
R22 that does not name every operation. -/

namespace Sys2Proof.Machine

/-- ILL is written by reserved commands only (R22). -/
@[simp] theorem bundleOf_ill (i : Instr) (p : Inputs) : (bundleOf i p).ill = 0 := by
  cases i <;> rfl

/-- NRDY, STAT and PPM are written by DEC.PPM only (R22). -/
theorem bundleOf_ppm_ports_eq_zero {i : Instr} (h : i ≠ .decPpm) (p : Inputs) :
    (bundleOf i p).nrdy = 0 ∧ (bundleOf i p).stat = 0 ∧ (bundleOf i p).ppm = 0 := by
  cases i with
  | decPpm => exact absurd rfl h
  | _ => exact ⟨rfl, rfl, rfl⟩

/-- CALST and CALVAL are written by DEC.CAL only (R22). -/
theorem bundleOf_cal_ports_eq_zero {i : Instr} (h : i ≠ .decCal) (p : Inputs) :
    (bundleOf i p).calst = 0 ∧ (bundleOf i p).calval = 0 := by
  cases i with
  | decCal => exact absurd rfl h
  | _ => exact ⟨rfl, rfl⟩

/-- VER is written by DEC.VER only (R22). -/
theorem bundleOf_ver_eq_zero {i : Instr} (h : i ≠ .decVer) (p : Inputs) : (bundleOf i p).ver = 0 := by
  cases i with
  | decVer => exact absurd rfl h
  | _ => rfl

/-- RES is written by DEC.RES only (R22). -/
theorem bundleOf_res_eq_zero {i : Instr} (h : i ≠ .decRes) (p : Inputs) : (bundleOf i p).res = 0 := by
  cases i with
  | decRes => exact absurd rfl h
  | _ => rfl

/-- FOUT is written by CRCGEN, DEC.GEN and BLD.CAL only (R22): not by CRCCHK and the other decoders. -/
theorem bundleOf_fout_eq_zero {i : Instr} (h : i ∈ [.crcchk, .decPpm, .decCal, .decVer, .decRes]) (p : Inputs) :
    (bundleOf i p).fout = 0 := by
  simp only [List.mem_cons, List.not_mem_nil, or_false] at h
  obtain rfl | rfl | rfl | rfl | rfl := h <;> rfl

/-- Settles O30, port by port from the bundle the operation drives. -/
theorem undefinedOutputsZero : Obligations.UndefinedOutputsZero := by
  intro i s
  exact ⟨s.drive (bundleOf i s.inp), exec_eq i s, bundleOf_ill i s.inp,
    fun h => bundleOf_ppm_ports_eq_zero h s.inp, fun h => bundleOf_cal_ports_eq_zero h s.inp,
    fun h => bundleOf_ver_eq_zero h s.inp, fun h => bundleOf_res_eq_zero h s.inp,
    fun h => bundleOf_fout_eq_zero h s.inp⟩

end Sys2Proof.Machine
end

section
/-! PROOFS. What a transaction gives and what it leaves alone (R20, R26, R45), and the two readings of CRCOK (R22): the
frame a checking operation consumed, the frame a generating operation produced. -/

namespace Sys2Proof.Machine

/-- Settles O26, with the model's `cfb` as the function CFB. -/
theorem outputsFromInputsAlone : Obligations.OutputsFromInputsAlone :=
  ⟨cfb, fun s p hheld => ⟨_, transaction_of_held s hheld, commandOut_eq_cfb p⟩⟩

/-- Settles O37, with the operation's bundle as the new output. -/
theorem execChangesOutputsOnly : Obligations.ExecChangesOutputsOnly :=
  fun i s => ⟨bundleOf i s.inp, exec_eq i s⟩

/-- A checking operation takes CRCOK from the residue of D (R106, R130). -/
theorem bundleOf_crcok_of_checking {i : Instr} (h : i ∉ [.crcgen, .bldCal]) (p : Inputs) :
    (bundleOf i p).crcok = crcOkFlag (residue p.d) := by
  cases i with
  | crcgen | bldCal => simp at h
  | crcchk | decPpm | decCal | decVer | decRes | decGen _ => rfl

/-- A generating operation drives the common bundle of the frame generators, over some four data bytes (R105, R170). -/
theorem bundleOf_of_generating {i : Instr} (h : i ∈ [.crcgen, .bldCal]) (p : Inputs) :
    ∃ b0 b1 b2 b3 : Byte, bundleOf i p = generateOut b0 b1 b2 b3 := by
  simp only [List.mem_cons, List.not_mem_nil, or_false] at h
  obtain rfl | rfl := h <;> exact ⟨_, _, _, _, rfl⟩

@[simp] theorem generateOut_crcok (b0 b1 b2 b3 : Byte) : (generateOut b0 b1 b2 b3).crcok = 1 := rfl

/-- The frame a generator completes has residue 0 (R105, R170). -/
@[simp] theorem residue_generateOut_fout (b0 b1 b2 b3 : Byte) : residue (generateOut b0 b1 b2 b3).fout = 0 :=
  residue_generated b0 b1 b2 b3

/-- Settles O36: a checking operation's CRCOK is the flag of the residue of D; a generating one's is constantly 1, and
the frame it completes has residue 0. -/
theorem crcokMeaning : Obligations.CrcokMeaning := by
  intro i s
  refine ⟨s.drive (bundleOf i s.inp), exec_eq i s, fun hcheck => ?_, fun hgen => ?_⟩
  · rw [drive_out, bundleOf_crcok_of_checking hcheck]
    exact crcOkFlag_eq_one_iff _
  · obtain ⟨b0, b1, b2, b3, hout⟩ := bundleOf_of_generating hgen s.inp
    simp [hout]

end Sys2Proof.Machine
end

section
/-! PROOFS. The bytes of a frame and the multi-byte fields as numbers (spec/20_memory.md R41, R42). -/

namespace Sys2Proof.Machine

/-- The frame is the sum of its bytes at their places (R41). -/
theorem frame_toNat (d : Frame) : d.toNat = (frameByte d 0).toNat * 2 ^ 32 + (frameByte d 1).toNat * 2 ^ 24 +
    (frameByte d 2).toNat * 2 ^ 16 + (frameByte d 3).toNat * 2 ^ 8 + (frameByte d 4).toNat := by
  rw [← packFrame_toNat, packFrame_frameByte]

/-- Settles O17, from the byte's slice, from packing a frame's own bytes, and from unpacking. -/
theorem framePacking : Obligations.FramePacking :=
  ⟨fun d i _ => frameByte_toNat d i, frame_toNat, frameBytes_packFrame⟩

/-- A 16-bit word is its two bytes, the high one the more significant (R42). -/
theorem half_toNat (v : Half) : v.toNat = (highByte v).toNat * 2 ^ 8 + (lowByte v).toNat := by
  rw [← be16_toNat, be16_highByte_lowByte]

/-- A generated frame carries its third and fourth data bytes as frame bytes 2 and 3. -/
theorem frameByte_generateOut_fout (b0 b1 b2 b3 : Byte) :
    frameByte (generateOut b0 b1 b2 b3).fout 2 = b2 ∧ frameByte (generateOut b0 b1 b2 b3).fout 3 = b3 := by
  obtain ⟨-, -, h2, h3, -⟩ := frameByte_packFrame b0 b1 b2 b3 (crc8 [b0, b1, b2, b3])
  exact ⟨h2, h3⟩

/-- Settles O18, field by field from the big-endian words of two and three bytes. -/
theorem bigEndianFields : Obligations.BigEndianFields := by
  intro s
  refine ⟨_, _, _, _, exec_eq .decPpm s, exec_eq .decCal s, exec_eq .decRes s, exec_eq .bldCal s,
    be24_toNat _ _ _, ?res, be16_toNat _ _, be16_toNat _ _, ?value⟩
  case res =>
    exact (resistance_toNat s.inp.d).trans (congrArg (· * 10) (be24_toNat _ _ _))
  case value =>
    obtain ⟨h2, h3⟩ := frameByte_generateOut_fout 0x00 0x00 (highByte s.inp.value) (lowByte s.inp.value)
    simp only [drive_out, bundleOf, h2, h3]
    exact half_toNat s.inp.value

end Sys2Proof.Machine
end

section
/-! PROOFS. A sequence of held transactions gives each its own bundle (R53, R224), and the same transaction again
changes nothing (R45). -/

namespace Sys2Proof.Machine

theorem transcript_succ {s t : State} (n : Nat) (h : step s = .next t) :
    transcript (n + 1) s = t.out :: transcript n t := by
  simp only [transcript, h]

/-- The first step of a schedule is the transaction of its first presentation, with the rest to come. -/
theorem step_withSchedule_cons (s : State) {p : Inputs} (ps : List Inputs) (h : p.held = true) :
    step (s.withSchedule (p :: ps)) =
      .next (((s.present p).drive (cfb p.cmd p.d p.value)).withSchedule ps) := by
  rw [← commandOut_eq_cfb]
  exact transaction_of_held (s.withSchedule ps) h

/-- The bundles of a held sequence, from any state, are those its transactions have alone: each step leaves the rest of
the sequence to a state of which nothing is assumed. -/
theorem transcript_withSchedule (s : State) (ps : List Inputs) (h : ∀ p ∈ ps, p.held = true) :
    transcript ps.length (s.withSchedule ps) = ps.map (fun p => cfb p.cmd p.d p.value) := by
  induction ps generalizing s with
  | nil => rfl
  | cons p ps ih =>
    obtain ⟨hp, hps⟩ := List.forall_mem_cons.1 h
    rw [List.length_cons, transcript_succ _ (step_withSchedule_cons s ps hp), ih _ hps]
    rfl

/-- Settles O27: the transcript is a map over the sequence, and a map keeps permutations. -/
theorem sequenceGivesEachItsOwn : Obligations.SequenceGivesEachItsOwn := by
  refine ⟨transcript_withSchedule, fun s u ps qs hps hperm => ?_⟩
  have hqs : ∀ q ∈ qs, q.held = true := fun q hq => hps q (hperm.mem_iff.2 hq)
  rw [transcript_withSchedule u qs hqs, transcript_withSchedule s ps hps]
  exact (hperm.map _).symm

/-- Settles O38: the bundle does not depend on the state, so the second transaction drives the first one's again. -/
theorem transactionIdempotent : Obligations.TransactionIdempotent :=
  fun s _ hheld => ⟨_, transaction_of_held s hheld, transaction_of_held _ hheld⟩

end Sys2Proof.Machine
end

section
/-! PROOFS. What the block answers to a command word of the encoder. -/

namespace Sys2Proof

/-- Decoding an operation's command word gives the operation back. -/
@[simp] theorem decode_encode (i : Instr) : decode (encode i) = .ok i := by
  cases i with
  | decGen sel => simp [encode, decode, fnOf_commandWord, selOf_commandWord]
  | crcgen | crcchk | decPpm | decCal | decVer | decRes | bldCal => rfl

namespace Machine

/-- The block on an operation's command word gives that operation's bundle. -/
theorem cfb_encode (i : Instr) (d : Frame) (v : Half) :
    cfb (encode i) d v = bundleOf i (Inputs.steady (encode i) d v) := by
  rw [cfb_eq]
  simp only [commandOut, steady_cmd, decode_encode]

end Machine
end Sys2Proof
end

section
/-! PROOFS. The host side's own operations: how the ErrorState is recorded (R52) and cleared (V7), and what a frame
read leaves in the driver (R48). -/

namespace Sys2Proof.Machine.Driver

theorem record_ok (h : HostState) : record 0 h = h := rfl
theorem record_notReady (h : HostState) : record 1 h = { h with err := .notReady } := rfl
theorem record_crcMismatch (h : HostState) : record 2 h = { h with err := .crcMismatch } := rfl
theorem record_illegal (h : HostState) : record 3 h = h := rfl

@[simp] theorem consumeLastError_snd (h : HostState) : (consumeLastError h).2 = h.err := rfl
@[simp] theorem consumeLastError_err (h : HostState) : (consumeLastError h).1.err = .ok := rfl

/-- Settles O49, one recorded code at a time. -/
theorem driverErrorMapping : Obligations.DriverErrorMapping := by
  intro h
  refine ⟨?_, ?_, record_ok h, record_illegal h, consumeLastError_snd h, ?_⟩
  · rw [record_notReady]
  · rw [record_crcMismatch]
  · rw [consumeLastError_snd, consumeLastError_err]

/-- Settles O48: BLD.CAL's frame, unpacked behind the register address; the flag is the transport's. -/
theorem calibrationWriteBytes : Obligations.CalibrationWriteBytes := by
  refine ⟨fun v => ?_, fun _ _ => rfl, fun _ _ _ => rfl⟩
  rw [calibrationWrite, cfb_encode]
  exact congrArg (0x01 :: ·) (frameBytes_packFrame 0x00 0x00 (highByte v) (lowByte v) _)

/-- Settles O47: neither failure reaches the block, so every operation keeps its sentinel and `receive` sets the error. -/
theorem driverTransportFailure : Obligations.DriverTransportFailure := by
  rintro h r now dest gen register e (⟨code, buffer, rfl, rfl⟩ | ⟨buffer, rfl, rfl⟩) <;>
    exact ⟨rfl, rfl, rfl, rfl, rfl, rfl, rfl, rfl, rfl, rfl, rfl, rfl⟩

end Sys2Proof.Machine.Driver
end

section
/-! PROOFS. The driver's five reads of a frame that arrived (R51, R52). The block's part of each is the bundle of its
view on the frame; what the driver keeps of it turns on ERR, which the frame's CRC byte and ready flag decide. -/

namespace Sys2Proof.Machine

theorem dataBytes_packFrame (b0 b1 b2 b3 b4 : Byte) : dataBytes (packFrame b0 b1 b2 b3 b4) = [b0, b1, b2, b3] := by
  obtain ⟨h0, h1, h2, h3, -⟩ := frameByte_packFrame b0 b1 b2 b3 b4
  simp only [dataBytes, h0, h1, h2, h3]

/-- A frame of five bytes is good exactly when the fifth is the CRC of the others. -/
theorem residue_packFrame_eq_zero_iff (b0 b1 b2 b3 b4 : Byte) :
    residue (packFrame b0 b1 b2 b3 b4) = 0 ↔ crc8 [b0, b1, b2, b3] = b4 := by
  obtain ⟨-, -, -, -, h4⟩ := frameByte_packFrame b0 b1 b2 b3 b4
  rw [residue_eq_zero_iff, dataBytes_packFrame, h4]

theorem versionByte_packFrame (b0 b1 b2 b3 b4 : Byte) : versionByte (packFrame b0 b1 b2 b3 b4) = b1 := by
  obtain ⟨-, h1, -, -, -⟩ := frameByte_packFrame b0 b1 b2 b3 b4
  exact h1

theorem concentration_packFrame (b0 b1 b2 b3 b4 : Byte) :
    concentration (packFrame b0 b1 b2 b3 b4) = b1 ++ b2 ++ b3 := by
  obtain ⟨-, h1, h2, h3, -⟩ := frameByte_packFrame b0 b1 b2 b3 b4
  simp only [concentration, be24, h1, h2, h3]

theorem resistance_packFrame_toNat (b0 b1 b2 b3 b4 : Byte) : (resistance (packFrame b0 b1 b2 b3 b4)).toNat =
    (b0.toNat * 2 ^ 16 + b1.toNat * 2 ^ 8 + b2.toNat) * 10 := by
  obtain ⟨h0, h1, h2, -, -⟩ := frameByte_packFrame b0 b1 b2 b3 b4
  rw [resistance_toNat, rawResistance, be24_toNat, h0, h1, h2]

theorem calibrationStatus_packFrame (b0 b1 b2 b3 b4 : Byte) :
    calibrationStatus (packFrame b0 b1 b2 b3 b4) = b0 ++ b1 := by
  obtain ⟨h0, h1, -, -, -⟩ := frameByte_packFrame b0 b1 b2 b3 b4
  simp only [calibrationStatus, be16, h0, h1]

theorem calibrationValue_packFrame (b0 b1 b2 b3 b4 : Byte) :
    calibrationValue (packFrame b0 b1 b2 b3 b4) = b2 ++ b3 := by
  obtain ⟨-, -, h2, h3, -⟩ := frameByte_packFrame b0 b1 b2 b3 b4
  simp only [calibrationValue, be16, h2, h3]

/-- The ready flag of a frame is the parity of its first byte (R9, D10). -/
theorem readyFlag_packFrame_toNat (b0 b1 b2 b3 b4 : Byte) :
    (readyFlag (packFrame b0 b1 b2 b3 b4)).toNat = b0.toNat % 2 := by
  obtain ⟨h0, -, -, -, -⟩ := frameByte_packFrame b0 b1 b2 b3 b4
  simp [readyFlag, h0, BitVec.extractLsb'_toNat]

end Sys2Proof.Machine
end

section
/-! PROOFS. What each of the driver's reads keeps and returns, by the frame's CRC byte and its ready flag (R51, R52). -/

namespace Sys2Proof.Machine.Driver

/-- A failed check of the CRC is recorded, a good one leaves the ErrorState (R52). -/
theorem record_residueErr (r : Byte) (h : HostState) :
    record (residueErr r) h = if r = 0 then h else { h with err := .crcMismatch } := by
  rw [residueErr_eq]
  split
  · exact record_ok h
  · exact record_crcMismatch h

/-- The transaction on a frame that arrived is the operation's on that frame. -/
theorem blockOn_receive_frame (i : Instr) (b0 b1 b2 b3 b4 : Byte) (h : HostState) :
    blockOn i (receive (.frame b0 b1 b2 b3 b4) h) =
      bundleOf i (Inputs.steady (encode i) (packFrame b0 b1 b2 b3 b4) 0) :=
  cfb_encode i _ 0

/-- The driver's state after a checking read of a frame: the frame in the buffer, and the ErrorState the CRC gives. -/
def checkedState (b0 b1 b2 b3 b4 : Byte) (h : HostState) : HostState :=
  { h with
    buffer := packFrame b0 b1 b2 b3 b4
    err := if crc8 [b0, b1, b2, b3] = b4 then .ok else .crcMismatch }

/-- Recording the residue's ERR after a frame read gives the checked state. -/
theorem record_residueErr_receive_frame (b0 b1 b2 b3 b4 : Byte) (h : HostState) :
    record (residueErr (residue (packFrame b0 b1 b2 b3 b4))) (receive (.frame b0 b1 b2 b3 b4) h) =
      checkedState b0 b1 b2 b3 b4 h := by
  rw [record_residueErr, checkedState]
  by_cases hcrc : crc8 [b0, b1, b2, b3] = b4
  · rw [if_pos ((residue_packFrame_eq_zero_iff ..).2 hcrc), if_pos hcrc]
    rfl
  · rw [if_neg (mt (residue_packFrame_eq_zero_iff ..).1 hcrc), if_neg hcrc]
    rfl

/-- ERR of a checking operation on a frame is OK exactly when the fifth byte is the CRC of the others. -/
theorem residueErr_packFrame_eq_ok_iff (b0 b1 b2 b3 b4 : Byte) :
    residueErr (residue (packFrame b0 b1 b2 b3 b4)) = ErrCode.ok.code ↔ crc8 [b0, b1, b2, b3] = b4 := by
  rw [residueErr_eq, ← residue_packFrame_eq_zero_iff]
  split <;> simp_all [ErrCode.code]

theorem readVersion_frame (b0 b1 b2 b3 b4 : Byte) (h : HostState) :
    readVersion (.frame b0 b1 b2 b3 b4) h = (checkedState b0 b1 b2 b3 b4 h, b1) := by
  simp only [readVersion, blockOn_receive_frame]
  exact Prod.ext (record_residueErr_receive_frame ..) (versionByte_packFrame ..)

theorem readResistance_frame (b0 b1 b2 b3 b4 : Byte) (h : HostState) :
    readResistance (.frame b0 b1 b2 b3 b4) h =
      (checkedState b0 b1 b2 b3 b4 h, resistance (packFrame b0 b1 b2 b3 b4)) := by
  simp only [readResistance, blockOn_receive_frame]
  exact Prod.ext (record_residueErr_receive_frame ..) rfl

theorem readCalibrationData_frame (b0 b1 b2 b3 b4 : Byte) (dest : Calibration) (h : HostState) :
    readCalibrationData (.frame b0 b1 b2 b3 b4) dest h = (checkedState b0 b1 b2 b3 b4 h,
      if crc8 [b0, b1, b2, b3] = b4 then ({ status := b0 ++ b1, value := b2 ++ b3 }, true) else (dest, false)) := by
  simp only [readCalibrationData, blockOn_receive_frame, bundleOf, checkOut, steady_d,
    residueErr_packFrame_eq_ok_iff, record_residueErr_receive_frame, calibrationStatus_packFrame,
    calibrationValue_packFrame]
  split <;> rfl

theorem readGenericRegister_frame (register : Byte) (b0 b1 b2 b3 b4 : Byte) (dest : Generic) (h : HostState) :
    readGenericRegister register (.frame b0 b1 b2 b3 b4) dest h = (checkedState b0 b1 b2 b3 b4 h,
      if crc8 [b0, b1, b2, b3] = b4 then ({ data := [b0, b1, b2, b3], crc := b4, crcValid := true }, true)
      else (dest, false)) := by
  obtain ⟨-, -, -, -, h4⟩ := frameByte_packFrame b0 b1 b2 b3 b4
  simp only [readGenericRegister, blockOn_receive_frame, bundleOf, checkOut, steady_d,
    residueErr_packFrame_eq_ok_iff, record_residueErr_receive_frame, dataBytes_packFrame, h4]
  split <;> rfl

/-- ERR of a PPM frame from its bytes: the CRC byte first, then the parity of the first byte (R133). -/
theorem ppmErr_packFrame (b0 b1 b2 b3 b4 : Byte) :
    ppmErr (residue (packFrame b0 b1 b2 b3 b4)) (readyFlag (packFrame b0 b1 b2 b3 b4)) =
      if crc8 [b0, b1, b2, b3] = b4 then (if b0.toNat % 2 = 1 then 1 else 0) else 2 := by
  have hflag : readyFlag (packFrame b0 b1 b2 b3 b4) = 1 ↔ b0.toNat % 2 = 1 := by
    rw [← readyFlag_packFrame_toNat b0 b1 b2 b3 b4, ← BitVec.toNat_inj]
    rfl
  simp only [ppmErr_eq, ne_eq, residue_packFrame_eq_zero_iff, hflag, ite_not]

/-- ERR alone decides what the concentration read keeps (R51); the status of every frame is the model's choice of log
entry 14. -/
theorem readConcentration_frame (now : Nat) (b0 b1 b2 b3 b4 : Byte) (h : HostState) :
    readConcentration now (.frame b0 b1 b2 b3 b4) h =
      if crc8 [b0, b1, b2, b3] = b4 then
        if b0.toNat % 2 = 1 then
          ({ h with buffer := packFrame b0 b1 b2 b3 b4, err := .notReady, status := .captured b0 }, h.cache)
        else
          ({ h with buffer := packFrame b0 b1 b2 b3 b4, err := .ok, status := .captured b0,
                    cache := b1 ++ b2 ++ b3, lastRead := now }, b1 ++ b2 ++ b3)
      else
        ({ h with buffer := packFrame b0 b1 b2 b3 b4, err := .crcMismatch, status := .captured b0 }, h.cache) := by
  obtain ⟨h0, -, -, -, -⟩ := frameByte_packFrame b0 b1 b2 b3 b4
  simp only [readConcentration, blockOn_receive_frame, bundleOf, steady_d, ppmErr_packFrame, deviceStatus, h0,
    concentration_packFrame]
  split
  · split <;> rfl
  · rfl

/-- Settles O46, read by read from the four checking reads' equations and the concentration read's three cases. -/
theorem driverUsesFrames : Obligations.DriverUsesFrames := by
  intro h b0 b1 b2 b3 b4 now dest gen register
  refine ⟨?version, ?resistance, fun hcrc hready => ?ready, fun hcrc hbusy => ?notReady, fun hcrc => ?good,
    fun hcrc => ?bad⟩
  case version => rw [readVersion_frame]
  case resistance => rw [readResistance_frame, resistance_packFrame_toNat]
  case ready => simp [readConcentration_frame, hcrc, hready]
  case notReady => simp [readConcentration_frame, hcrc, hbusy]
  case good =>
    simp [readVersion_frame, readResistance_frame, readCalibrationData_frame, readGenericRegister_frame,
      checkedState, hcrc]
  case bad =>
    simp [readVersion_frame, readResistance_frame, readConcentration_frame, readCalibrationData_frame,
      readGenericRegister_frame, checkedState, hcrc]

end Sys2Proof.Machine.Driver
end

section
/-! PROOFS. Decoding inverts encoding, so an operation is decoded exactly on its own command word, and a command word's
two fields are the quotient and the remainder of CMD by 0x100 (R60, R63, R64). -/

namespace Sys2Proof

/-- A command that decodes to an operation is that operation's word. -/
theorem encode_of_decode {c : Cmd} {i : Instr} (h : decode c = .ok i) : encode i = c := by
  refine Eq.trans ?_ (commandWord_fnOf_selOf c)
  obtain ⟨hf, hs, hd⟩ | ⟨hf, hs, hd⟩ | ⟨hf, hs, hd⟩ | ⟨hf, hs, hd⟩ | ⟨hf, hs, hd⟩ | ⟨hf, hs, hd⟩ | ⟨hf, hd⟩ |
    ⟨hf, hs, hd⟩ | ⟨hd, -⟩ := decode_cases c
  all_goals cases hd.symm.trans h <;> simp [encode, *]

theorem decode_eq_ok_iff (c : Cmd) (i : Instr) : decode c = .ok i ↔ encode i = c :=
  ⟨encode_of_decode, fun h => h ▸ decode_encode i⟩

/-- Settles O13. -/
theorem decodeEncodeAgree : Obligations.DecodeEncodeAgree :=
  ⟨decode_encode, fun _ _ => encode_of_decode⟩

end Sys2Proof
end

section
/-! PROOFS. The command map as numbers: each operation's fields (R64), how many commands select one, which are reserved
(R65), and the rows of the map (R63). -/

namespace Sys2Proof

/-- Fields that make up a command are its quotient and its remainder by 0x100 (R60). -/
theorem commandWord_eq_iff (fn : BitVec 3) (sel : Byte) (c : Cmd) :
    commandWord fn sel = c ↔ c.toNat / 256 = fn.toNat ∧ c.toNat % 256 = sel.toNat := by
  rw [← fnOf_toNat, ← selOf_toNat, BitVec.toNat_inj, BitVec.toNat_inj]
  constructor
  · rintro rfl
    exact ⟨fnOf_commandWord fn sel, selOf_commandWord fn sel⟩
  · rintro ⟨rfl, rfl⟩
    exact commandWord_fnOf_selOf c

/-- An operation is decoded exactly from the fn and sel of its command word. -/
theorem decode_eq_ok_iff_fields {i : Instr} {fn : BitVec 3} {sel : Byte} (h : encode i = commandWord fn sel) (c : Cmd) :
    decode c = .ok i ↔ c.toNat / 256 = fn.toNat ∧ c.toNat % 256 = sel.toNat := by
  rw [decode_eq_ok_iff, h, commandWord_eq_iff]

/-- A command selects an operation exactly when it is some operation's word. -/
theorem selectsOperation_iff (c : Cmd) : selectsOperation c = true ↔ ∃ i, encode i = c := by
  simp only [← decode_eq_ok_iff, selectsOperation]
  cases decode c <;> simp

theorem encode_injective : Function.Injective encode := fun i j h =>
  Except.ok.inj ((decode_encode i).symm.trans (h ▸ decode_encode j))

/-- Every operation once: the seven that carry no selector, and DEC.GEN with each of its 256. -/
def operations : List Instr :=
  [.crcgen, .crcchk, .decPpm, .decCal, .decVer, .decRes, .bldCal] ++
    (List.finRange 256).map fun k => .decGen (BitVec.ofFin k)

theorem mem_operations (i : Instr) : i ∈ operations := by
  cases i with
  | decGen sel => exact List.mem_append_right _ (List.mem_map.2 ⟨sel.toFin, List.mem_finRange _, rfl⟩)
  | _ => simp [operations]

theorem nodup_operations : operations.Nodup := by
  have hgen : Function.Injective fun k : Fin 256 => Instr.decGen (BitVec.ofFin k) := fun a b h => by
    simpa using h
  refine List.nodup_append.2 ⟨by decide, (List.nodup_finRange 256).map hgen, ?_⟩
  simp

theorem length_operations : operations.length = 263 := by
  simp [operations]

/-- The numbers of the commands that select an operation are the operations' words. -/
theorem filter_selectsOperation_perm :
    ((List.range 2048).filter fun n => selectsOperation (BitVec.ofNat 11 n)).Perm
      (operations.map fun i => (encode i).toNat) := by
  have hwords : Function.Injective fun i => (encode i).toNat := fun i j h =>
    encode_injective (BitVec.eq_of_toNat_eq h)
  refine (List.perm_ext_iff_of_nodup (List.nodup_range.filter _) (nodup_operations.map hwords)).2 fun n => ?_
  simp only [List.mem_filter, List.mem_range, List.mem_map, mem_operations, true_and, selectsOperation_iff]
  constructor
  · rintro ⟨hn, i, hi⟩
    exact ⟨i, by rw [hi, BitVec.toNat_ofNat]; omega⟩
  · rintro ⟨i, rfl⟩
    exact ⟨(encode i).isLt, i, by simp⟩

theorem length_filter_selectsOperation :
    ((List.range 2048).filter fun n => selectsOperation (BitVec.ofNat 11 n)).length = 263 := by
  rw [filter_selectsOperation_perm.length_eq, List.length_map, length_operations]

/-- Settles O11: the clauses from each operation's command word, the counts by listing the operations. -/
theorem decodeProcedure : Obligations.DecodeProcedure := by
  refine ⟨fun c => ⟨
    decode_eq_ok_iff_fields (fn := 0b000) (sel := 0x00) rfl c,
    decode_eq_ok_iff_fields (fn := 0b001) (sel := 0x00) rfl c,
    decode_eq_ok_iff_fields (fn := 0b010) (sel := 0x00) rfl c,
    decode_eq_ok_iff_fields (fn := 0b010) (sel := 0x01) rfl c,
    decode_eq_ok_iff_fields (fn := 0b010) (sel := 0x11) rfl c,
    decode_eq_ok_iff_fields (fn := 0b010) (sel := 0x20) rfl c,
    fun sel => decode_eq_ok_iff_fields (fn := 0b011) (sel := sel) rfl c,
    decode_eq_ok_iff_fields (fn := 0b100) (sel := 0x01) rfl c⟩, length_filter_selectsOperation, ?_⟩
  have hall := List.length_eq_length_filter_add (l := List.range 2048) fun n => selectsOperation (BitVec.ofNat 11 n)
  rw [List.length_range, length_filter_selectsOperation] at hall
  omega

theorem encodesInRow (i : Instr) : Laws.EncodesInRow.Statement i :=
  match i with
  | .crcgen => Laws.EncodesInRow.crcgen
  | .crcchk => Laws.EncodesInRow.crcchk
  | .decPpm => Laws.EncodesInRow.decPpm
  | .decCal => Laws.EncodesInRow.decCal
  | .decVer => Laws.EncodesInRow.decVer
  | .decRes => Laws.EncodesInRow.decRes
  | .decGen sel => Laws.EncodesInRow.decGen sel
  | .bldCal => Laws.EncodesInRow.bldCal

/-- The full mask of R63 keeps every bit of CMD. -/
theorem and_fullMask (c : Cmd) : c &&& 0x7FF = c := BitVec.and_allOnes

/-- The mask of DEC.GEN's row keeps the function class, and its pattern has class 011. -/
theorem fnOf_of_and_classMask {c : Cmd} (h : c &&& 0x700 = 0x300) : fnOf c = 3 := by
  have hkeep : fnOf (c &&& 0x700) = fnOf c := by
    apply BitVec.eq_of_getLsbD_eq
    intro k hk
    interval_cases k <;> simp [fnOf]
  rw [← hkeep, h]
  rfl

/-- Every row but DEC.GEN's is fully masked, and its pattern is its operation's word. -/
theorem rowOf_exact_or_decGen (i : Instr) :
    ((rowOf i).mask = 0x7FF ∧ (rowOf i).pattern = encode i) ∨ ∃ sel, i = .decGen sel := by
  cases i with
  | decGen sel => exact .inr ⟨sel, rfl⟩
  | _ => exact .inl ⟨rfl, rfl⟩

/-- A command that a row selects decodes to an operation of that row: the one word of a fully masked row, or DEC.GEN
with the command's own selector. -/
theorem decode_of_rowOf_selects {c : Cmd} {i : Instr} (h : (rowOf i).selects c = true) :
    ∃ j, decode c = .ok j ∧ rowOf j = rowOf i := by
  have hmatch : c &&& (rowOf i).mask = (rowOf i).pattern := eq_of_beq h
  obtain ⟨hmask, hpattern⟩ | ⟨sel, rfl⟩ := rowOf_exact_or_decGen i
  · rw [hmask, and_fullMask, hpattern] at hmatch
    exact ⟨i, (decode_eq_ok_iff c i).2 hmatch.symm, rfl⟩
  · refine ⟨.decGen (selOf c), (decode_eq_ok_iff _ _).2 ?_, rfl⟩
    rw [encode, ← fnOf_of_and_classMask hmatch, commandWord_fnOf_selOf]

/-- A row selects exactly the commands of its operations. -/
theorem rowOf_selects_iff (c : Cmd) (i : Instr) :
    (rowOf i).selects c = true ↔ ∃ j, decode c = .ok j ∧ rowOf j = rowOf i := by
  refine ⟨decode_of_rowOf_selects, ?_⟩
  rintro ⟨j, hdec, hrow⟩
  obtain ⟨hsel, -, -⟩ := encodesInRow j
  rwa [hrow, encode_of_decode hdec] at hsel

theorem exists_rowOf_of_mem_opcodeTable {r : OpcodeRow} (h : r ∈ opcodeTable) : ∃ i, rowOf i = r := by
  simp only [opcodeTable, List.mem_cons, List.not_mem_nil, or_false] at h
  obtain rfl | rfl | rfl | rfl | rfl | rfl | rfl | rfl := h <;> exact ⟨_, rfl⟩

theorem selects_iff_of_mem_opcodeTable {r : OpcodeRow} (h : r ∈ opcodeTable) (c : Cmd) :
    r.selects c = true ↔ ∃ i, decode c = .ok i ∧ rowOf i = r := by
  obtain ⟨i, rfl⟩ := exists_rowOf_of_mem_opcodeTable h
  exact rowOf_selects_iff c i

/-- Settles O12. Two rows that selected one command would both be the row of the operation it decodes to. -/
theorem opcodeMap : Obligations.OpcodeMap := by
  have hnodup : opcodeTable.Nodup := by decide
  refine ⟨by decide, hnodup.imp_of_mem fun hr hq hne c ⟨hrc, hqc⟩ => ?_, fun c r hr =>
    selects_iff_of_mem_opcodeTable hr c⟩
  obtain ⟨i, hi, rfl⟩ := (selects_iff_of_mem_opcodeTable hr c).1 hrc
  obtain ⟨j, hj, rfl⟩ := (selects_iff_of_mem_opcodeTable hq c).1 hqc
  exact hne (congrArg rowOf (Except.ok.inj (hi.symm.trans hj)))

/-- Settles O14, word by word. -/
theorem writtenWordsDecode : Obligations.WrittenWordsDecode :=
  ⟨rfl, rfl, rfl, rfl, rfl, rfl, rfl, rfl, by decide⟩

/-- A command is reserved exactly in the four cases of R65. -/
theorem selectsOperation_eq_false_iff (c : Cmd) : selectsOperation c = false ↔
    (5 ≤ c.toNat / 256 ∨ (c.toNat / 256 ≤ 1 ∧ c.toNat % 256 ≠ 0x00) ∨
     (c.toNat / 256 = 2 ∧ c.toNat % 256 ∉ [0x00, 0x01, 0x11, 0x20]) ∨
     (c.toNat / 256 = 4 ∧ c.toNat % 256 ≠ 0x01)) := by
  have hcases := decode_cases c
  simp only [← BitVec.toNat_inj, fnOf_toNat, selOf_toNat, BitVec.ofNat_eq_ofNat, BitVec.toNat_ofNat] at hcases
  simp only [List.mem_cons, List.not_mem_nil, or_false, selectsOperation]
  obtain ⟨hf, hs, hd⟩ | ⟨hf, hs, hd⟩ | ⟨hf, hs, hd⟩ | ⟨hf, hs, hd⟩ | ⟨hf, hs, hd⟩ | ⟨hf, hs, hd⟩ | ⟨hf, hd⟩ |
    ⟨hf, hs, hd⟩ | ⟨hd, hno⟩ := hcases
  all_goals
    simp only [hd, true_iff, Bool.true_eq_false, false_iff]
    omega

end Sys2Proof
end

section
/-! PROOFS. From a decoded or a reserved command to the step that runs it (R64, R65, R203), for the ports, a placed
command word (log entries 1 and 7) and an assembler line (R68). -/

namespace Sys2Proof.Machine

theorem commandOut_of_decode {p : Inputs} {i : Instr} (h : decode p.cmd = .ok i) : commandOut p = bundleOf i p := by
  simp only [commandOut, h]

theorem commandOut_of_reserved {p : Inputs} (h : selectsOperation p.cmd = false) : commandOut p = illegalOut := by
  unfold selectsOperation at h
  unfold commandOut
  cases hdec : decode p.cmd with
  | ok i => simp [hdec] at h
  | error r => rfl

/-- A held command that decodes to an operation is that operation's step. -/
theorem step_of_decode {s : State} {i : Instr} (hheld : s.advance.inp.held = true)
    (hdec : decode s.advance.inp.cmd = .ok i) : step s = exec i s.advance := by
  rw [step_of_held hheld, exec_eq, commandOut_of_decode hdec]

/-- A held presentation whose command decodes to an operation runs it on that presentation. -/
theorem transaction_of_decode (s : State) {p : Inputs} {i : Instr} (hheld : p.held = true)
    (hdec : decode p.cmd = .ok i) : transaction s p = exec i (s.present p) :=
  step_of_decode (s := { s with schedule := p :: s.schedule }) hheld hdec

/-- A held reserved command yields the ILLEGAL bundle. -/
theorem transaction_of_reserved (s : State) {p : Inputs} (hheld : p.held = true)
    (hres : selectsOperation p.cmd = false) :
    transaction s p = .next { s with inp := p, out := { Out.zero with ill := 1, err := 3 }, outStatus := .valid } := by
  rw [transaction_of_held s hheld, commandOut_of_reserved hres]
  rfl

/-- Settles O10. The bundle of the next transaction is its own command's, from whatever state. -/
theorem reservedCommandIllegal : Obligations.ReservedCommandIllegal :=
  ⟨selectsOperation_eq_false_iff, fun s _ hheld hres => transaction_of_reserved s hheld hres,
    fun s _ _ hp hq hres =>
      ⟨_, _, _, transaction_of_reserved s hp hres, transaction_of_held _ hq, transaction_of_held s hq, rfl⟩⟩

theorem advance_of_schedule_nil {s : State} (h : s.schedule = []) : s.advance = s := by
  simp only [State.advance, h]

theorem advance_of_schedule_cons {s : State} {p : Inputs} {ps : List Inputs} (h : s.schedule = p :: ps) :
    s.advance = { s with inp := p, schedule := ps } := by
  simp only [State.advance, h]

/-- Settles O39. -/
theorem stepRunsDecoded : Obligations.StepRunsDecoded :=
  ⟨fun _ _ => step_of_decode, fun _ => advance_of_schedule_nil, fun _ _ _ => advance_of_schedule_cons⟩

theorem tableCommand_eq_some {nbits w : Nat} {c : Cmd} (h : tableCommand nbits w = some c) :
    BitVec.ofNat 11 (w % 2 ^ nbits) = c := by
  unfold tableCommand at h
  split at h
  · exact Option.some.inj h
  · cases h

/-- A number that the table decoder reads is a command that decodes to the same operation. -/
theorem decodeTableWord_eq_some {nbits w : Nat} {i : Instr} (h : decodeTableWord nbits w = some i) :
    ∃ c, tableCommand nbits w = some c ∧ decode c = .ok i := by
  unfold decodeTableWord at h
  cases hc : tableCommand nbits w with
  | none => simp [hc] at h
  | some c =>
    cases hdec : decode c with
    | ok j => exact ⟨c, rfl, by simpa [hc, hdec] using h⟩
    | error r => simp [hc, hdec] at h

theorem advance_withFetchWord (s : State) (nbits w : Nat) :
    (s.withFetchWord nbits w).advance = s.withFetchWord nbits w :=
  advance_of_schedule_nil (withFetchWord_schedule s nbits w)

/-- Settles O40: a placed word stands on the ports, held, with nothing scheduled before it. -/
theorem fetchWordRuns : Obligations.FetchWordRuns := by
  intro s nbits w i h
  obtain ⟨c, hc, hdec⟩ := decodeTableWord_eq_some h
  have hheld : (s.withFetchWord nbits w).inp.held = true := held_of_change_none (withFetchWord_change s nbits w)
  have hrun := step_of_decode (s := s.withFetchWord nbits w) (i := i)
  rw [advance_withFetchWord, withFetchWord_cmd, tableCommand_eq_some hc] at hrun
  exact hrun hheld hdec

theorem assemble_held (l : Line) : l.assemble.held = true := by
  cases l <;> rfl

/-- A line that names an operation carries that operation's word. -/
theorem assemble_cmd {l : Line} {i : Instr} (h : l.operation = some i) : l.assemble.cmd = encode i := by
  cases l with
  | rawCmd c d v => cases h
  | _ => cases h; rfl

/-- The words of DEC.GEN are 0x300 and the selector (R63). -/
theorem encode_decGen (sel : Byte) : encode (.decGen sel) = 0x300 + sel.setWidth 11 := by
  apply BitVec.eq_of_toNat_eq
  have hsel := sel.isLt
  rw [encode, commandWord, append_byte_toNat, BitVec.toNat_add, BitVec.toNat_setWidth]
  simp only [BitVec.ofNat_eq_ofNat, BitVec.toNat_ofNat]
  omega

theorem rawCmd_reserved {c : BitVec 12} {d : Frame} {v : Half} (h : (Line.rawCmd c d v).wellFormed = true) :
    selectsOperation (Line.rawCmd c d v).assemble.cmd = false := by
  simp only [Line.wellFormed, Bool.and_eq_true, Bool.not_eq_true'] at h
  obtain ⟨-, hres⟩ := h
  exact hres

/-- Settles O45. -/
theorem lineRunsItsOperation : Obligations.LineRunsItsOperation := by
  refine ⟨fun l i s hop => ?operation, fun d => ⟨rfl, rfl, rfl, rfl, rfl, rfl, rfl⟩, fun d sel => ?selector,
    fun v => rfl, fun s c d v hwf => ?reserved⟩
  case operation =>
    exact transaction_of_decode s (assemble_held l) (by rw [assemble_cmd hop, decode_encode])
  case selector => exact congrArg (Inputs.steady · d 0) (encode_decGen sel)
  case reserved => exact ⟨_, transaction_of_reserved s (assemble_held _) (rawCmd_reserved hwf), rfl⟩

end Sys2Proof.Machine
end

section
/-! PROOFS. The operands an operation reads (R61), and the decoded fields as numbers (R62). -/

namespace Sys2Proof.Machine

/-- VALUE reaches BLD.CAL only (R61). -/
theorem bundleOf_value_irrelevant {i : Instr} (h : i ≠ .bldCal) (p : Inputs) (v : Half) :
    bundleOf i { p with value := v } = bundleOf i p := by
  cases i with
  | bldCal => exact absurd rfl h
  | _ => rfl

/-- The data bytes are those of D[39:8]. -/
theorem dataBytes_eq_of_data (d : Frame) : dataBytes d = dataBytes (d.extractLsb' 8 32 ++ (0x00 : Byte)) := by
  rw [← packFrame_data, dataBytes_packFrame]
  rfl

/-- CRCGEN reads D[39:8] only (R61). -/
theorem bundleOf_crcgen_eq_of_data {p q : Inputs} (h : p.d.extractLsb' 8 32 = q.d.extractLsb' 8 32) :
    bundleOf .crcgen p = bundleOf .crcgen q := by
  have hbytes : dataBytes p.d = dataBytes q.d := by
    rw [dataBytes_eq_of_data p.d, h, ← dataBytes_eq_of_data]
  simp only [dataBytes, List.cons.injEq] at hbytes
  obtain ⟨h0, h1, h2, h3, -⟩ := hbytes
  simp only [bundleOf, h0, h1, h2, h3]

/-- Settles O15, each operand from the operation's bundle. -/
theorem ignoredOperands : Obligations.IgnoredOperands :=
  ⟨fun i s v hi => ⟨_, _, exec_eq i s, exec_eq i _, bundleOf_value_irrelevant hi s.inp v⟩,
    fun s _ hd => ⟨_, _, exec_eq .crcgen s, exec_eq .crcgen _, bundleOf_crcgen_eq_of_data hd⟩,
    fun s _ => ⟨_, _, exec_eq .bldCal s, exec_eq .bldCal _, rfl⟩,
    fun s a b => ⟨_, _, exec_eq (.decGen a) s, exec_eq (.decGen b) s, rfl⟩⟩

/-- A field that is a slice of D is, as a number, a quotient and a remainder by powers of two. -/
theorem toNat_of_slice {d : Frame} {start len : Nat} {x : BitVec len} (h : x = d.extractLsb' start len) :
    x.toNat = d.toNat / 2 ^ start % 2 ^ len := by
  rw [h, BitVec.extractLsb'_toNat, Nat.shiftRight_eq_div_pow]

/-- Settles O16, field by field from its slice. -/
theorem fieldSlices : Obligations.FieldSlices := fun s =>
  ⟨_, _, _, _, exec_eq .decPpm s, exec_eq .decCal s, exec_eq .decVer s, exec_eq .decRes s,
    toNat_of_slice (readyFlag_slice s.inp.d), frameByte_toNat s.inp.d 0, toNat_of_slice (concentration_slice s.inp.d),
    toNat_of_slice (calibrationStatus_slice s.inp.d), toNat_of_slice (calibrationValue_slice s.inp.d),
    frameByte_toNat s.inp.d 1,
    (resistance_toNat s.inp.d).trans (congrArg (· * 10) (toNat_of_slice (rawResistance_slice s.inp.d))),
    residue_eq s.inp.d⟩

end Sys2Proof.Machine
end

section
/-! PROOFS. The CRC-8 function (spec/40_crc.md section 1): the bit step as arithmetic and as a bijection (R100, R103),
the byte step and its table (R101, R107), the residue lemma (R104) and linearity (R108). -/

namespace Sys2Proof.Machine

/-- Bit 7 of a byte is set exactly in the upper half of the byte values (R9). -/
theorem getLsbD_seven (c : Byte) : c.getLsbD 7 = decide (128 ≤ c.toNat) := BitVec.msb_eq_decide c

theorem shiftLeft_one_toNat (c : Byte) : (c <<< 1).toNat = 2 * c.toNat % 256 := by
  rw [BitVec.toNat_shiftLeft, Nat.shiftLeft_eq]
  omega

/-- Below 0x80 the bit step doubles (R100). -/
theorem crcBit_toNat_of_lt {c : Byte} (h : c.toNat < 128) : (crcBit c).toNat = 2 * c.toNat := by
  have hbit : c.getLsbD 7 = false := by rw [getLsbD_seven]; exact decide_eq_false (by omega)
  simp only [crcBit, hbit, Bool.false_eq_true, if_false, shiftLeft_one_toNat]
  omega

/-- From 0x80 on the bit step drops bit 7 of the double and XORs the polynomial in (R100). -/
theorem crcBit_toNat_of_ge {c : Byte} (h : 128 ≤ c.toNat) : (crcBit c).toNat = (2 * c.toNat % 256) ^^^ 0x31 := by
  have hbit : c.getLsbD 7 = true := by rw [getLsbD_seven]; exact decide_eq_true h
  simp only [crcBit, hbit, if_true, BitVec.toNat_xor, shiftLeft_one_toNat]
  rfl

/-- Settles O19, half by half. -/
theorem bitStep : Obligations.BitStep := by
  intro c
  split
  · exact crcBit_toNat_of_ge ‹_›
  · exact crcBit_toNat_of_lt (by omega)

/-- The parity of a bit step tells which half its argument is in, since the polynomial is odd (R103). -/
theorem crcBit_odd_iff (c : Byte) : (crcBit c).toNat % 2 = 1 ↔ 128 ≤ c.toNat := by
  by_cases h : 128 ≤ c.toNat
  · rw [crcBit_toNat_of_ge h, Nat.xor_mod_two_eq]
    omega
  · rw [crcBit_toNat_of_lt (by omega)]
    omega

theorem crcBit_even_iff (c : Byte) : (crcBit c).toNat % 2 = 0 ↔ c.toNat < 128 := by
  have hodd := crcBit_odd_iff c
  omega

theorem crcBit_bijective : Function.Bijective crcBit := Finite.injective_iff_bijective.1 crcBit_injective

/-- A value's one preimage under the bit step has every property that the value forces on its preimages. -/
theorem existsUnique_crcBit_eq {y : Byte} {P : Byte → Prop} (h : ∀ c, crcBit c = y → P c) :
    ∃! c, P c ∧ crcBit c = y := by
  obtain ⟨c, hc, huniq⟩ := crcBit_bijective.existsUnique y
  exact ⟨c, ⟨h c hc, hc⟩, fun a ⟨_, ha⟩ => huniq a ha⟩

/-- Settles O22: a bit step is injective on finitely many bytes, and the parity of a value says in which half its one
preimage lies. -/
theorem bitStepBijective : Obligations.BitStepBijective :=
  ⟨crcBit_zero, crcBit_bijective, fun _ => crcBit_toNat_of_lt,
    fun c h => ⟨crcBit_toNat_of_ge h, (crcBit_odd_iff c).2 h⟩,
    fun _ heven => existsUnique_crcBit_eq fun c hc => (crcBit_even_iff c).1 (hc ▸ heven),
    fun _ hodd => existsUnique_crcBit_eq fun c hc => (crcBit_odd_iff c).1 (hc ▸ hodd),
    crcBit_bijective.iterate 8, crcBits_zero 8⟩

/-- The byte step reads its two arguments through their XOR alone (R101). -/
theorem crcByte_eq_of_xor_eq {c b e f : Byte} (h : c ^^^ b = e ^^^ f) : crcByte c b = crcByte e f := by
  rw [crcByte, crcByte, h]

/-- Settles O20. -/
theorem byteStep : Obligations.ByteStep :=
  ⟨fun _ _ => rfl, fun _ _ _ _ => crcByte_eq_of_xor_eq⟩

/-- Settles O21. -/
theorem checksumOfList : Obligations.ChecksumOfList := ⟨crc8_nil, crc8_snoc⟩

/-- A table of the byte steps from 0, indexed by c ^ b, is the byte step (R107). -/
theorem crcByte_zero_xor (c b : Byte) : crcByte 0x00 (c ^^^ b) = crcByte c b :=
  crcByte_eq_of_xor_eq BitVec.zero_xor

/-- Settles O25: the two folds have the same step function. -/
theorem tableRealisation : Obligations.TableRealisation := by
  intro table htable bs
  have hstep : (fun c b => table (c ^^^ b)) = crcByte := by
    funext c b
    rw [htable, crcByte_zero_xor]
  rw [hstep]
  rfl

/-- One more byte gives checksum 0 exactly when it is the checksum so far (R104). -/
theorem crc8_snoc_eq_zero_iff (bs : List Byte) (b : Byte) : crc8 (bs ++ [b]) = 0 ↔ b = crc8 bs := by
  rw [crc8_snoc, crcByte_eq_zero_iff, eq_comm]

/-- Settles O23, from one byte more than the four data bytes. -/
theorem residueLemma : Obligations.ResidueLemma := by
  have hzero (b0 b1 b2 b3 b4 : Byte) : crc8 [b0, b1, b2, b3, b4] = 0 ↔ b4 = crc8 [b0, b1, b2, b3] :=
    crc8_snoc_eq_zero_iff [b0, b1, b2, b3] b4
  refine ⟨hzero, fun b0 b1 b2 b3 => ?_⟩
  simp only [hzero, existsUnique_eq]

/-- Running CRCs and byte lists of one length go in by XOR, and XOR comes out (R108). -/
theorem crc8From_xor (c k : Byte) {xs es : List Byte} (h : xs.length = es.length) :
    crc8From (c ^^^ k) (List.zipWith (· ^^^ ·) xs es) = crc8From c xs ^^^ crc8From k es := by
  induction xs generalizing c k es with
  | nil =>
    cases es with
    | nil => rfl
    | cons e es => cases h
  | cons x xs ih =>
    cases es with
    | nil => cases h
    | cons e es =>
      rw [List.zipWith_cons_cons, crc8From_cons, crc8From_cons, crc8From_cons, crcByte_xor]
      exact ih _ _ (Nat.succ.inj h)

/-- The second list counts from initial value 0, which leaves CRC_INIT to the first (R108). -/
theorem crc8_xor {xs es : List Byte} (h : xs.length = es.length) :
    crc8 (List.zipWith (· ^^^ ·) xs es) = crc8 xs ^^^ crc8From 0x00 es :=
  crc8From_xor crcInit 0x00 h

theorem frameBytes_xor (d e : Frame) :
    frameBytes (d ^^^ e) = List.zipWith (· ^^^ ·) (frameBytes d) (frameBytes e) := by
  simp only [frameBytes, dataBytes, frameByte_xor]
  rfl

theorem residue_xor (d e : Frame) : residue (d ^^^ e) = residue d ^^^ crc8From 0x00 (frameBytes e) := by
  rw [residue, frameBytes_xor]
  exact crc8_xor rfl

/-- The residue of a corrupted valid frame depends on the error pattern alone (R108). -/
theorem residue_xor_of_valid {d : Frame} (h : residue d = 0) (e : Frame) :
    residue (d ^^^ e) = crc8From 0x00 (frameBytes e) := by
  rw [residue_xor, h]
  exact BitVec.zero_xor

/-- Settles O24: the two examples are the residues of their error patterns. -/
theorem crcLinear : Obligations.CrcLinear :=
  ⟨crcBit_xor, fun _ _ => crc8_xor, fun _ e hd => residue_xor_of_valid hd e,
    fun _ hd => ⟨(residue_xor_of_valid hd _).trans (by decide +kernel),
      (residue_xor_of_valid hd _).trans (by decide +kernel)⟩⟩

end Sys2Proof.Machine
end

section
/-! PROOFS. CRCGEN and CRCCHK (R105, R106): their bundles as the rules write them, and the second on the first's
frame. -/

namespace Sys2Proof.Machine

/-- The bundle of CRCGEN, as R105 writes it. -/
theorem bundleOf_crcgen (p : Inputs) : bundleOf .crcgen p =
    { Out.zero with
      crc := crc8 (dataBytes p.d)
      fout := p.d.extractLsb' 8 32 ++ crc8 (dataBytes p.d)
      crcok := 1
      err := 0 } := by
  simp only [bundleOf, generateOut, packFrame_data]
  rfl

/-- The common bundle of the checking operations, with CRCOK and ERR read off the residue (R106, R131). -/
theorem checkOut_eq (d : Frame) : checkOut d =
    { Out.zero with
      crc := residue d
      crcok := if residue d = 0 then 1 else 0
      err := if residue d = 0 then 0 else 2 } := by
  rw [checkOut, crcOkFlag_eq, residueErr_eq]

/-- A valid frame checks with ERR OK, CRC 0 and CRCOK 1 (R106). -/
theorem checkOut_of_valid {d : Frame} (h : residue d = 0) :
    checkOut d = { Out.zero with err := 0, crc := 0, crcok := 1 } := by
  simp only [checkOut_eq, h, if_true]

/-- Settles O1: the bundle reads D[39:8] only and completes a frame of residue 0. -/
theorem crcgenResult : Obligations.CrcgenResult := by
  refine ⟨rfl, fun s => ?bundle, fun s => ⟨_, exec_eq .crcgen s, residue_generateOut_fout _ _ _ _⟩,
    fun s d v hd => ⟨_, _, exec_eq .crcgen s, exec_eq .crcgen _, bundleOf_crcgen_eq_of_data hd⟩,
    by decide +kernel, by decide +kernel, fun s hd => ⟨_, exec_eq .crcgen s, ?sample⟩⟩
  case bundle =>
    rw [exec_eq, bundleOf_crcgen]
    rfl
  case sample =>
    rw [drive_out, bundleOf_crcgen, hd]
    decide +kernel

/-- Settles O2. A frame that differs from a valid one in one byte differs from it in the residue. -/
theorem crcchkResult : Obligations.CrcchkResult := by
  refine ⟨rfl, fun s => ?bundle, by decide +kernel, by decide +kernel, by decide +kernel, by decide +kernel,
    by decide +kernel, by decide +kernel, fun d e i hd hi hsame hne => ?oneByte⟩
  case bundle =>
    rw [exec_eq, bundleOf, checkOut_eq]
    rfl
  case oneByte => exact hd ▸ residue_ne_of_one_byte d e i hi hsame hne

/-- A held presentation drives the bundle of the operation its command decodes to, whatever is left to present. -/
theorem transaction_drives (s : State) {p : Inputs} {i : Instr} (hheld : p.held = true) (hdec : decode p.cmd = .ok i) :
    transaction s p = .next ((s.present p).drive (bundleOf i p)) := by
  rw [transaction_of_decode s hheld hdec, exec_eq, present_inp]

/-- Settles O35: FOUT of CRCGEN has residue 0, so CRCCHK gives the bundle of a valid frame. -/
theorem generatedFrameChecks : Obligations.GeneratedFrameChecks := by
  intro s d v w
  have hgen : decode 0x000 = .ok .crcgen := rfl
  have hchk : decode 0x100 = .ok .crcchk := rfl
  refine ⟨_, _, transaction_drives s (steady_held 0x000 d v) hgen,
    transaction_drives _ (steady_held 0x100 _ w) hchk, ?_, rfl⟩
  exact checkOut_of_valid (residue_generateOut_fout _ _ _ _)

end Sys2Proof.Machine
end

section
/-! PROOFS. The five frame decoders (R132 to R136): each one's bundle as its rule writes it, and BLD.CAL's frame read
back through DEC.CAL. -/

namespace Sys2Proof.Machine

/-- An operation whose bundle is known drives it and changes nothing else. -/
theorem exec_of_bundleOf {i : Instr} {s : State} {o : Out} (h : bundleOf i s.inp = o) :
    exec i s = .next { s with out := o, outStatus := .valid } :=
  h ▸ exec_eq i s

/-- The bundle of DEC.VER, as R132 writes it. -/
theorem bundleOf_decVer (p : Inputs) : bundleOf .decVer p =
    { Out.zero with
      crc := residue p.d
      crcok := if residue p.d = 0 then 1 else 0
      ver := p.d.extractLsb' 24 8
      err := if residue p.d = 0 then 0 else 2 } := by
  rw [bundleOf, checkOut_eq]
  rfl

/-- The bundle of DEC.PPM, as R133 writes it. -/
theorem bundleOf_decPpm (p : Inputs) : bundleOf .decPpm p =
    { Out.zero with
      crc := residue p.d
      crcok := if residue p.d = 0 then 1 else 0
      stat := p.d.extractLsb' 32 8
      nrdy := p.d.extractLsb' 32 1
      ppm := p.d.extractLsb' 8 24
      err := if residue p.d ≠ 0 then 2 else if p.d.extractLsb' 32 1 = 1 then 1 else 0 } := by
  rw [bundleOf, checkOut_eq, ppmErr_eq, readyFlag_slice, concentration_slice]
  rfl

/-- The bundle of DEC.RES (R134), with the model's product. -/
theorem bundleOf_decRes (p : Inputs) : bundleOf .decRes p =
    { Out.zero with
      crc := residue p.d
      crcok := if residue p.d = 0 then 1 else 0
      res := resistance p.d
      err := if residue p.d = 0 then 0 else 2 } := by
  rw [bundleOf, checkOut_eq]

/-- The bundle of DEC.CAL, as R135 writes it. -/
theorem bundleOf_decCal (p : Inputs) : bundleOf .decCal p =
    { Out.zero with
      crc := residue p.d
      crcok := if residue p.d = 0 then 1 else 0
      calst := p.d.extractLsb' 24 16
      calval := p.d.extractLsb' 8 16
      err := if residue p.d = 0 then 0 else 2 } := by
  rw [bundleOf, checkOut_eq, calibrationStatus_slice, calibrationValue_slice]

/-- The bundle of DEC.GEN, as R136 writes it; the selector does not enter. -/
theorem bundleOf_decGen (sel : Byte) (p : Inputs) : bundleOf (.decGen sel) p =
    { Out.zero with
      crc := residue p.d
      crcok := if residue p.d = 0 then 1 else 0
      fout := p.d
      err := if residue p.d = 0 then 0 else 2 } := by
  rw [bundleOf, checkOut_eq]

/-- RES as a number is ten times its slice of D (R134). -/
theorem resistance_toNat_slice (d : Frame) : (resistance d).toNat = (d.extractLsb' 16 24).toNat * 10 := by
  rw [resistance_toNat, rawResistance_slice]

/-- The largest RES comes from the largest 24-bit magnitude (R134). -/
theorem resistance_toNat_le (d : Frame) : (resistance d).toNat ≤ 167772150 := by
  have hraw := (rawResistance d).isLt
  rw [resistance_toNat]
  omega

/-- BLD.CAL's frame holds a zero status word and VALUE (R135, R170). -/
theorem calibration_bldCal_fout (p : Inputs) :
    calibrationStatus (bundleOf .bldCal p).fout = 0x0000 ∧ calibrationValue (bundleOf .bldCal p).fout = p.value :=
  ⟨calibrationStatus_packFrame _ _ _ _ _,
    (calibrationValue_packFrame _ _ _ _ _).trans (be16_highByte_lowByte p.value)⟩

/-- ERR from the residue alone is OK only for a good frame (R131). -/
theorem residueErr_eq_zero_iff (r : Byte) : residueErr r = 0 ↔ r = 0 := by
  rw [residueErr_eq]
  split <;> simp_all

/-- Settles O5, with the model's product, which is the exact one. -/
theorem decResResult : Obligations.DecResResult := by
  refine ⟨rfl, fun s => ⟨resistance s.inp.d, resistance_toNat_slice s.inp.d, resistance_toNat_le s.inp.d, ?bound,
    exec_of_bundleOf (bundleOf_decRes s.inp)⟩, fun s hd => ⟨_, exec_eq .decRes s, ?largest⟩,
    fun s hd => ⟨_, exec_eq .decRes s, ?zero⟩, fun s hd => ⟨_, exec_eq .decRes s, ?sample⟩⟩
  case bound => exact (resistance_toNat_le s.inp.d).trans_lt (by decide)
  all_goals
    rw [drive_out, bundleOf_decRes, hd]
    decide +kernel

/-- Settles O6. The read-back is DEC.CAL's two words of BLD.CAL's own frame. -/
theorem decCalResult : Obligations.DecCalResult := by
  refine ⟨rfl, fun s => exec_of_bundleOf (bundleOf_decCal s.inp),
    fun s => ⟨_, _, exec_eq .bldCal s, exec_eq .decCal _, calibration_bldCal_fout s.inp⟩,
    fun s hd => ⟨_, exec_eq .decCal s, ?sample⟩⟩
  case sample =>
    rw [drive_out, bundleOf_decCal, hd]
    decide +kernel

/-- Settles O3, with both examples read off the bundle. -/
theorem decVerResult : Obligations.DecVerResult := by
  refine ⟨rfl, fun s => exec_of_bundleOf (bundleOf_decVer s.inp), fun s hd => ⟨_, exec_eq .decVer s, ?allOnes⟩,
    fun s hd => ⟨_, exec_eq .decVer s, ?sample⟩⟩
  all_goals
    rw [drive_out, bundleOf_decVer, hd]
    decide +kernel

/-- Settles O4, with ERR's priority in the bundle and the examples read off it. -/
theorem decPpmResult : Obligations.DecPpmResult := by
  refine ⟨rfl, fun s => exec_of_bundleOf (bundleOf_decPpm s.inp), fun s hd => ⟨_, exec_eq .decPpm s, ?largest⟩,
    fun s hd => ⟨_, exec_eq .decPpm s, ?zero⟩, fun s hd => ⟨_, exec_eq .decPpm s, ?sample⟩⟩
  all_goals
    rw [drive_out, bundleOf_decPpm, hd]
    decide +kernel

/-- Settles O7. ERR and CRCOK are read off one residue, so ERR OK comes with CRCOK 1. -/
theorem decGenResult : Obligations.DecGenResult := by
  refine ⟨fun sel => (decode_eq_ok_iff _ _).2 (encode_decGen sel),
    fun sel s => exec_of_bundleOf (bundleOf_decGen sel s.inp),
    fun sel s => ⟨_, exec_eq (.decGen sel) s, fun herr => ?good⟩,
    fun sel s hd => ⟨_, exec_eq (.decGen sel) s, ?sample⟩⟩
  case good => exact (crcOkFlag_eq_one_iff _).2 ((residueErr_eq_zero_iff _).1 herr)
  case sample =>
    rw [drive_out, bundleOf_decGen, hd]
    decide +kernel

end Sys2Proof.Machine
end

section
/-! PROOFS. The common parse step (R130, R131): CRC, CRCOK and ERR of the operations that check a frame. -/

namespace Sys2Proof.Machine

/-- A checking operation reports the residue of D on CRC (R106, R130). -/
theorem bundleOf_crc_of_checking {i : Instr} (h : i ∉ [.crcgen, .bldCal]) (p : Inputs) :
    (bundleOf i p).crc = residue p.d := by
  cases i with
  | crcgen | bldCal => simp at h
  | crcchk | decPpm | decCal | decVer | decRes | decGen _ => rfl

/-- A checking operation other than DEC.PPM takes ERR from the residue of D alone (R106, R131). -/
theorem bundleOf_err_of_checking {i : Instr} (h : i ∉ [.crcgen, .bldCal, .decPpm]) (p : Inputs) :
    (bundleOf i p).err = residueErr (residue p.d) := by
  cases i with
  | crcgen | bldCal | decPpm => simp at h
  | crcchk | decCal | decVer | decRes | decGen _ => rfl

/-- Settles O31: the decoders are checking operations. -/
theorem parseStepCommon : Obligations.ParseStepCommon := by
  intro i s hdec
  have hsub : [Instr.crcgen, .bldCal] ⊆ [.crcgen, .crcchk, .bldCal] := by decide
  have hcheck : i ∉ [.crcgen, .bldCal] := fun hmem => hdec (hsub hmem)
  refine ⟨_, exec_eq i s, bundleOf_crc_of_checking hcheck s.inp, ?_⟩
  rw [drive_out, bundleOf_crc_of_checking hcheck, bundleOf_crcok_of_checking hcheck, crcOkFlag_eq]

/-- Settles O32: the four views are the checking operations but CRCCHK and DEC.PPM. -/
theorem residueAloneDecidesErr : Obligations.ResidueAloneDecidesErr := by
  intro i s hview
  have hsub : [Instr.crcgen, .bldCal, .decPpm] ⊆ [.crcgen, .crcchk, .bldCal, .decPpm] := by decide
  have hcheck : i ∉ [.crcgen, .bldCal, .decPpm] := fun hmem => hview (hsub hmem)
  exact ⟨_, exec_eq i s, (bundleOf_err_of_checking hcheck s.inp).trans (residueErr_eq _)⟩

end Sys2Proof.Machine
end

section
/-! PROOFS. Which bytes of a frame its decoded fields read: the data bytes, whatever the CRC byte (R137), and of those
the ones of the field's own slice (R138). -/

namespace Sys2Proof.Machine

/-- A replaced CRC byte leaves the data bytes as they are (R137). -/
theorem dataBytes_data_append (d : Frame) (c : Byte) : dataBytes (d.extractLsb' 8 32 ++ c) = dataBytes d := by
  rw [← packFrame_data, dataBytes_packFrame]
  rfl

/-- The decoded fields of every operation read the data bytes only (R137). -/
theorem bundleOf_fields_eq_of_dataBytes (i : Instr) {p q : Inputs} (h : dataBytes q.d = dataBytes p.d) :
    (bundleOf i q).ver = (bundleOf i p).ver ∧ (bundleOf i q).stat = (bundleOf i p).stat ∧
    (bundleOf i q).nrdy = (bundleOf i p).nrdy ∧ (bundleOf i q).ppm = (bundleOf i p).ppm ∧
    (bundleOf i q).res = (bundleOf i p).res ∧ (bundleOf i q).calst = (bundleOf i p).calst ∧
    (bundleOf i q).calval = (bundleOf i p).calval := by
  simp only [dataBytes, List.cons.injEq] at h
  obtain ⟨h0, h1, h2, h3, -⟩ := h
  cases i with
  | crcgen | crcchk | decGen _ | bldCal => exact ⟨rfl, rfl, rfl, rfl, rfl, rfl, rfl⟩
  | decVer => exact ⟨h1, rfl, rfl, rfl, rfl, rfl, rfl⟩
  | decPpm =>
    have hnrdy : readyFlag q.d = readyFlag p.d := by rw [readyFlag, h0, readyFlag]
    have hppm : concentration q.d = concentration p.d := by rw [concentration, h1, h2, h3, concentration]
    exact ⟨rfl, h0, hnrdy, hppm, rfl, rfl, rfl⟩
  | decRes =>
    have hraw : rawResistance q.d = rawResistance p.d := by rw [rawResistance, h0, h1, h2, rawResistance]
    have hres : resistance q.d = resistance p.d := by rw [resistance, hraw, resistance]
    exact ⟨rfl, rfl, rfl, rfl, hres, rfl, rfl⟩
  | decCal => exact ⟨rfl, rfl, rfl, rfl, rfl, congrArg₂ be16 h0 h1, congrArg₂ be16 h2 h3⟩

/-- Settles O33: the slices come from the views' bundles, the replaced CRC byte reaches no data byte. -/
theorem bestEffortDecode : Obligations.BestEffortDecode := by
  intro i s c _
  obtain ⟨hver, hstat, hnrdy, hppm, hres, hcalst, hcalval⟩ := bundleOf_fields_eq_of_dataBytes i
    (p := s.inp) (q := { s.inp with d := s.inp.d.extractLsb' 8 32 ++ c }) (dataBytes_data_append s.inp.d c)
  refine ⟨_, _, exec_eq i s, exec_eq i _, hver, hstat, hnrdy, hppm, hres, hcalst, hcalval,
    ?ver, ?ppm, ?res, ?cal, ?gen⟩
  case ver =>
    rintro rfl
    rfl
  case ppm =>
    rintro rfl
    exact ⟨rfl, readyFlag_slice _, concentration_slice _⟩
  case res =>
    rintro rfl
    exact resistance_toNat_slice _
  case cal =>
    rintro rfl
    exact ⟨calibrationStatus_slice _, calibrationValue_slice _⟩
  case gen =>
    rintro sel rfl
    exact ⟨rfl, rfl⟩

/-- Frames that agree on their low bits agree on every slice of those. -/
theorem extractLsb'_eq_of_low {d e : Frame} {len : Nat} (h : e.extractLsb' 0 len = d.extractLsb' 0 len)
    {start n : Nat} (hin : start + n ≤ len) : e.extractLsb' start n = d.extractLsb' start n := by
  rw [← BitVec.extractLsb'_extractLsb'_of_le hin, h, BitVec.extractLsb'_extractLsb'_of_le hin]

/-- Settles O34: the ignored bytes lie outside the slices of NRDY, PPM, RES and VER; each is one byte of the residue. -/
theorem bytesWithoutMeaning : Obligations.BytesWithoutMeaning := by
  refine ⟨fun s e h => ⟨_, _, exec_eq .decPpm s, exec_eq .decPpm _, ?nrdy, ?ppm, rfl⟩,
    fun s e h => ⟨_, _, exec_eq .decRes s, exec_eq .decRes _, ?res⟩,
    fun s e h => ⟨_, _, exec_eq .decVer s, exec_eq .decVer _, h⟩, residue_ne_of_one_byte⟩
  case nrdy =>
    have hflag : e.extractLsb' 32 1 = s.inp.d.extractLsb' 32 1 := extractLsb'_eq_of_low h (by decide)
    simp only [drive_out, bundleOf_decPpm, hflag]
  case ppm =>
    have hppm : e.extractLsb' 8 24 = s.inp.d.extractLsb' 8 24 := extractLsb'_eq_of_low h (by decide)
    simp only [drive_out, bundleOf_decPpm, hppm]
  case res => simp only [drive_out, bundleOf_decRes, resistance, rawResistance_slice, h]

end Sys2Proof.Machine
end

section
/-! PROOFS. BLD.CAL (R170, R171): its bundle as the rule writes it, the same frame from CRCGEN, and the frame presented
back to the block. -/

namespace Sys2Proof.Machine

/-- The bundle of BLD.CAL, as R170 writes it. -/
theorem bundleOf_bldCal (p : Inputs) : bundleOf .bldCal p =
    { Out.zero with
      crc := crc8 [0x00, 0x00, p.value.extractLsb' 8 8, p.value.extractLsb' 0 8]
      fout := (0x0000 : Half) ++ p.value ++ crc8 [0x00, 0x00, p.value.extractLsb' 8 8, p.value.extractLsb' 0 8]
      crcok := 1
      err := 0 } := by
  rw [bundleOf, generateOut, value_frame]
  rfl

/-- CRCGEN of a frame drives the generators' bundle over the frame's first four bytes (R105). -/
theorem bundleOf_crcgen_of_packFrame {p : Inputs} {b0 b1 b2 b3 b4 : Byte} (h : p.d = packFrame b0 b1 b2 b3 b4) :
    bundleOf .crcgen p = generateOut b0 b1 b2 b3 := by
  obtain ⟨h0, h1, h2, h3, -⟩ := frameByte_packFrame b0 b1 b2 b3 b4
  simp only [bundleOf, h, h0, h1, h2, h3]

/-- CRCGEN of {0x0000, v, 0x00} gives what BLD.CAL gives for VALUE = v (R170). -/
theorem bundleOf_crcgen_eq_bldCal {p q : Inputs} (h : q.d = (0x0000 : Half) ++ p.value ++ (0x00 : Byte)) :
    bundleOf .crcgen q = bundleOf .bldCal p :=
  bundleOf_crcgen_of_packFrame (h.trans (value_frame p.value 0x00).symm)

/-- Settles O8: the examples are read off the bundle, and CRCGEN's bundle is the same one. -/
theorem bldCalResult : Obligations.BldCalResult := by
  refine ⟨rfl, fun s => exec_of_bundleOf (bundleOf_bldCal s.inp),
    fun s => ⟨_, exec_eq .bldCal s, residue_generateOut_fout _ _ _ _⟩,
    fun s => ⟨_, _, exec_eq .bldCal s, exec_eq .crcgen _, ?fout, ?crc⟩,
    fun s hv => ⟨_, exec_eq .bldCal s, ?zero⟩, fun s hv => ⟨_, exec_eq .bldCal s, ?allOnes⟩,
    fun s hv => ⟨_, exec_eq .bldCal s, ?sample⟩⟩
  case fout => exact congrArg Out.fout (bundleOf_crcgen_eq_bldCal rfl)
  case crc => exact congrArg Out.crc (bundleOf_crcgen_eq_bldCal rfl)
  all_goals
    rw [drive_out, bundleOf_bldCal, hv]
    decide +kernel

/-- Settles O9: a built frame has residue 0, so CRCCHK gives the bundle of a valid frame, and DEC.CAL reads its two
words. -/
theorem builtFrameValidates : Obligations.BuiltFrameValidates := fun s =>
  ⟨_, _, _, exec_eq .bldCal s, exec_eq .crcchk _,
    congrArg Out.err (checkOut_of_valid (residue_generateOut_fout _ _ _ _)),
    exec_eq .decCal _, calibration_bldCal_fout s.inp⟩

end Sys2Proof.Machine
end

section
/-! PROOFS. ERR of every transaction, by priority (R201, R204): ILLEGAL for a reserved command, else the residue's and
the ready flag's. -/

namespace Sys2Proof.Machine

theorem commandOut_of_decode_error {p : Inputs} {r : Reserved} (h : decode p.cmd = .error r) :
    commandOut p = illegalOut := by
  simp only [commandOut, h]

/-- A generating operation reports OK (R105, R170). -/
theorem bundleOf_err_of_generating {i : Instr} (h : i ∈ [.crcgen, .bldCal]) (p : Inputs) : (bundleOf i p).err = 0 := by
  obtain ⟨b0, b1, b2, b3, hout⟩ := bundleOf_of_generating h p
  rw [hout]
  rfl

/-- Settles O29, one clause per way to ERR, each read off the bundle that the command drives. -/
theorem resultCodePriority : Obligations.ResultCodePriority := by
  intro s p hheld
  refine ⟨_, transaction_of_held s hheld, fun r hdec => ?reserved, fun hdec => ?crcgen, fun hdec => ?bldCal,
    fun i hdec hcheck => ?residue, fun hdec => ?ppm⟩
  case reserved => exact congrArg Out.err (commandOut_of_decode_error hdec)
  case crcgen =>
    rw [commandOut_of_decode hdec]
    exact bundleOf_err_of_generating (by decide) p
  case bldCal =>
    rw [commandOut_of_decode hdec]
    exact bundleOf_err_of_generating (by decide) p
  case residue =>
    have hsub : [Instr.crcgen, .bldCal] ⊆ [.crcgen, .bldCal, .decPpm] := by decide
    rw [commandOut_of_decode hdec, bundleOf_err_of_checking hcheck, residueErr_eq, ite_not]
    exact ⟨bundleOf_crc_of_checking (fun hmem => hcheck (hsub hmem)) p, rfl⟩
  case ppm =>
    rw [commandOut_of_decode hdec, bundleOf_decPpm]
    exact ⟨rfl, rfl, rfl, rfl⟩

end Sys2Proof.Machine
end

section
/-! PROOFS. Every step completes (R200), and the bundle it drives under held inputs is consistent (R201, R203, R204,
R133, R134, R22): the relations between the output ports of an operation, one lemma each, then the step. -/

namespace Sys2Proof.Machine

/-- Settles O28: driving the outputs, specified or free, moves nothing else. -/
theorem everyStepCompletes : Obligations.EveryStepCompletes := by
  intro s
  obtain ⟨-, hstep⟩ | ⟨-, hstep⟩ := step_cases s
  · exact ⟨⟨_, hstep⟩, commandOut s.advance.inp, .valid, s.advance.freeDraws, hstep⟩
  · exact ⟨⟨_, hstep⟩, Config.freeOut s.advance.freeDraws, .unspecified, s.advance.freeDraws + 1, hstep⟩

/-- Every checking operation takes ERR from the residue and the NRDY it drives, which is 0 outside DEC.PPM. -/
theorem bundleOf_err_eq_ppmErr {i : Instr} (h : i ∉ [.crcgen, .bldCal]) (p : Inputs) :
    (bundleOf i p).err = ppmErr (residue p.d) (bundleOf i p).nrdy := by
  cases i with
  | crcgen | bldCal => simp at h
  | crcchk | decPpm | decCal | decVer | decRes | decGen _ => rfl

/-- ERR OK or NOT_READY with a good CRC, CRC_MISMATCH with a bad one and the residue that shows it (R201, R204). -/
theorem bundleOf_err_cases (i : Instr) (p : Inputs) :
    ((bundleOf i p).crcok = 1 ∧ ((bundleOf i p).err = 0 ∨ (bundleOf i p).err = 1 ∧ (bundleOf i p).nrdy = 1)) ∨
    ((bundleOf i p).crcok = 0 ∧ (bundleOf i p).err = 2 ∧ (bundleOf i p).crc ≠ 0) := by
  by_cases hgen : i ∈ [.crcgen, .bldCal]
  · obtain ⟨b0, b1, b2, b3, hout⟩ := bundleOf_of_generating hgen p
    exact .inl ⟨hout ▸ rfl, .inl (bundleOf_err_of_generating hgen p)⟩
  · rw [bundleOf_crcok_of_checking hgen, bundleOf_crc_of_checking hgen, bundleOf_err_eq_ppmErr hgen, crcOkFlag_eq,
      ppmErr_eq]
    by_cases hres : residue p.d = 0
    · refine .inl ⟨if_pos hres, ?_⟩
      rw [if_neg (not_not_intro hres)]
      by_cases hnrdy : (bundleOf i p).nrdy = 1
      · exact .inr ⟨if_pos hnrdy, hnrdy⟩
      · exact .inl (if_neg hnrdy)
    · exact .inr ⟨if_neg hres, if_pos hres, hres⟩

/-- NRDY is bit 0 of STAT: the device status of DEC.PPM, 0 elsewhere (R133). -/
theorem bundleOf_nrdy_eq_stat (i : Instr) (p : Inputs) :
    (bundleOf i p).nrdy = (bundleOf i p).stat.extractLsb' 0 1 := by
  by_cases h : i = .decPpm
  · subst h
    rfl
  · obtain ⟨hnrdy, hstat, -⟩ := bundleOf_ppm_ports_eq_zero h p
    rw [hnrdy, hstat]
    rfl

/-- RES is ten times a 24-bit magnitude (R134). -/
theorem bundleOf_res_range (i : Instr) (p : Inputs) :
    (bundleOf i p).res.toNat % 10 = 0 ∧ (bundleOf i p).res.toNat ≤ 167772150 := by
  by_cases h : i = .decRes
  · subst h
    refine ⟨?_, resistance_toNat_le p.d⟩
    exact (congrArg (· % 10) (resistance_toNat p.d)).trans (Nat.mul_mod_left _ 10)
  · rw [bundleOf_res_eq_zero h]
    decide

/-- CRCOK is about the frame on FOUT: the frame DEC.GEN passes through, or the one a generator completed (R22). -/
theorem bundleOf_crcok_iff_residue_fout {i : Instr} {p : Inputs} (h : (bundleOf i p).fout ≠ 0) :
    (bundleOf i p).crcok = 1 ↔ residue (bundleOf i p).fout = 0 := by
  cases i with
  | crcgen | bldCal => exact iff_of_true rfl (residue_generateOut_fout _ _ _ _)
  | decGen _ => exact crcOkFlag_eq_one_iff _
  | crcchk | decPpm | decCal | decVer | decRes => exact absurd rfl h

/-- The bundle of every operation is consistent: ERR's three cases settle the clauses about ILL, ERR and CRCOK. -/
theorem bundleOf_consistent (i : Instr) (p : Inputs) : (bundleOf i p).Consistent := by
  obtain ⟨hok, herr | ⟨herr, hnrdy⟩⟩ | ⟨hbad, herr, hcrc⟩ := bundleOf_err_cases i p
  all_goals
    refine {
      illegal := ?_, good := ?_, mismatch := ?_, residueShown := ?_, notReady := ?_
      ready := bundleOf_nrdy_eq_stat i p
      range := bundleOf_res_range i p
      frame := bundleOf_crcok_iff_residue_fout }
    all_goals simp_all

/-- The ILLEGAL bundle is consistent: only ILL and ERR are not 0 (R203). -/
theorem illegalOut_consistent : illegalOut.Consistent where
  illegal := ⟨iff_of_true rfl rfl, fun _ => rfl⟩
  good := by decide
  mismatch := by decide
  residueShown := by decide
  notReady := by decide
  ready := rfl
  range := by decide
  frame := fun h => absurd rfl h

/-- The bundle of every command, reserved or not, is consistent. -/
theorem commandOut_consistent (p : Inputs) : (commandOut p).Consistent := by
  cases hdec : decode p.cmd with
  | ok i => exact commandOut_of_decode hdec ▸ bundleOf_consistent i p
  | error r => exact commandOut_of_decode_error hdec ▸ illegalOut_consistent

/-- Settles O44. A step with held inputs drives a command's bundle; one without leaves the outputs unspecified, of which
the invariant claims nothing. -/
theorem stepKeepsInv : Obligations.StepKeepsInv := by
  intro s t _ hnext
  obtain ⟨-, hstep⟩ | ⟨-, hstep⟩ := step_cases s <;> obtain rfl := Host.Outcome.next.inj (hstep.symm.trans hnext)
  · exact fun _ => commandOut_consistent s.advance.inp
  · exact fun hvalid => absurd hvalid (by simp)

end Sys2Proof.Machine
end

section
/-! PROOFS. Power-up and unstable inputs (spec/70_reset_and_hazards.md R220, R221, R225): when a presentation is held,
and when a host may observe the output ports. -/

namespace Sys2Proof.Machine

/-- R225's window in one place: the inputs are not held exactly when the first change falls at or before LATENCY. -/
theorem held_eq_false_iff (p : Inputs) : p.held = false ↔ ∃ t, p.change = some t ∧ t ≤ Config.latency := by
  unfold Inputs.held
  cases p.change with
  | none => simp
  | some t => simp

/-- Settles O41. -/
theorem changedInputsUnspecified : Obligations.ChangedInputsUnspecified :=
  ⟨held_eq_false_iff, fun s _ hchanged => transaction_of_not_held s hchanged⟩

/-- A host observes nothing before the first transaction completes (R221). -/
theorem observe_of_powerUp {s : State} (h : s.outStatus = .powerUp) : s.observe = none := by
  simp only [State.observe, h]

/-- Once a transaction has completed, the host observes the output ports, whether their bundle is a rule's or free. -/
theorem observe_of_ne_powerUp {s : State} (h : s.outStatus ≠ .powerUp) : s.observe = some s.out := by
  unfold State.observe
  cases hstatus : s.outStatus with
  | powerUp => exact absurd hstatus h
  | valid => rfl
  | unspecified => rfl

/-- Every step leaves the output ports observable: it drives them, or leaves them unspecified (R225). -/
theorem step_observable (s : State) : ∃ t, step s = .next t ∧ t.observe = some t.out := by
  obtain ⟨-, hstep⟩ | ⟨-, hstep⟩ := step_cases s
  · exact ⟨_, hstep, observe_of_ne_powerUp (by simp)⟩
  · exact ⟨_, hstep, observe_of_ne_powerUp (by simp)⟩

/-- Settles O42. The bundle of the first held transaction is CFB of its inputs, as that of every later one. -/
theorem nothingObservedBeforeFirst : Obligations.NothingObservedBeforeFirst := by
  refine ⟨observe_of_powerUp rfl, fun p hheld => ⟨_, transaction_of_held State.reset hheld, ?_⟩, step_observable⟩
  rw [← commandOut_eq_cfb]
  exact observe_of_ne_powerUp (by simp)

/-- Settles O43: the invariant claims nothing of the ports at power-up, where no rule has given them a bundle (R221). -/
theorem invAtReset : Obligations.InvAtReset := fun hvalid => absurd hvalid (by decide)

end Sys2Proof.Machine
end
